-- ==== Sys2Proof/Word.lean ====
section
/-! DEFINITION. The word types of the ASPA block: every host-visible register is 32 bits wide (R34) and the
selectors of a command word are 4-bit and 8-bit fields (R100, R105). -/

namespace Sys2Proof

/-- A 32-bit register, command word or operand (R34, R100). -/
abbrev Word := BitVec 32

/-- A byte of the register window (R83) and the 8-bit selector `F3` (R100). -/
abbrev Byte := BitVec 8

/-- A 4-bit selector field, `F1` or `F2` (R100). -/
abbrev Sel := BitVec 4

end Sys2Proof
end

