-- ==== Sys2Proof/Syntax.lean ====
section
/-! DEFINITION. The fifteen commands, one constructor per row of spec/opcode_table.json (R102). The selector fields
stay the raw 4-bit and 8-bit numbers of R105, because a value outside an operand's domain is a command that ends with
INVALID_ARGUMENT and not an illegal word (R103). The 32-bit operand is no part of the word (R101). -/

namespace Sys2Proof

/-- A command (R102): `ch` and `t` are `F1`, `c` is `F2`, `times` is `F3`, `id` is `F1`. -/
inductive Instr where
  | adcInit
  | adcSample (ch : Sel)
  | adcAvg (ch : Sel) (times : Byte)
  | adcToVolt
  | adcSetTimeout
  | pwmInit (t : Sel)
  | pwmSetDuty (t c : Sel)
  | pwmStart (t c : Sel)
  | pwmStop (t c : Sel)
  | motorInit
  | motorSetSpeed (id : Sel)
  | motorStop (id : Sel)
  | motorSetDeadband
  | servoInit
  | servoSetAngle (id : Sel)
deriving DecidableEq, Repr

end Sys2Proof
end

