-- ==== Sys2Proof/Decode.lean ====
section
/-! DEFINITION. The command decoder and encoder: the format of R100, the match and mask table of R102, the decoding
algorithm of R106 and the illegal words of R103. -/

namespace Sys2Proof

/-! ## Fields of a command word (R100) -/

/-- `OPC`, bits 7:0. -/
def Word.opc (w : Word) : Byte := w.extractLsb' 0 8

/-- `F1`, bits 11:8. -/
def Word.f1 (w : Word) : Sel := w.extractLsb' 8 4

/-- `F2`, bits 15:12. -/
def Word.f2 (w : Word) : Sel := w.extractLsb' 12 4

/-- `F3`, bits 23:16. -/
def Word.f3 (w : Word) : Byte := w.extractLsb' 16 8

/-- `RSV`, bits 31:24. -/
def Word.rsv (w : Word) : Byte := w.extractLsb' 24 8

/-! ## The table (R102) -/

/-- One row of the match and mask table: a word `w` is the row's command when `w & mask = fixed`. -/
structure Row where
  fixed : Word
  mask  : Word
  build : Word → Instr

/-- A word is the row's command (R102). -/
def Row.covers (r : Row) (w : Word) : Bool := w &&& r.mask == r.fixed

/-- The ADC rows of R102. -/
def adcRows : List Row :=
  [ ⟨0x00000001, 0xFFFFFFFF, fun _ => .adcInit⟩,
    ⟨0x00000002, 0xFFFFF0FF, fun w => .adcSample w.f1⟩,
    ⟨0x00000003, 0xFF00F0FF, fun w => .adcAvg w.f1 w.f3⟩,
    ⟨0x00000004, 0xFFFFFFFF, fun _ => .adcToVolt⟩,
    ⟨0x00000005, 0xFFFFFFFF, fun _ => .adcSetTimeout⟩ ]

/-- The PWM rows of R102. -/
def pwmRows : List Row :=
  [ ⟨0x00000010, 0xFFFFF0FF, fun w => .pwmInit w.f1⟩,
    ⟨0x00000011, 0xFFFF00FF, fun w => .pwmSetDuty w.f1 w.f2⟩,
    ⟨0x00000012, 0xFFFF00FF, fun w => .pwmStart w.f1 w.f2⟩,
    ⟨0x00000013, 0xFFFF00FF, fun w => .pwmStop w.f1 w.f2⟩ ]

/-- The motor rows of R102. -/
def motorRows : List Row :=
  [ ⟨0x00000020, 0xFFFFFFFF, fun _ => .motorInit⟩,
    ⟨0x00000021, 0xFFFFF0FF, fun w => .motorSetSpeed w.f1⟩,
    ⟨0x00000022, 0xFFFFF0FF, fun w => .motorStop w.f1⟩,
    ⟨0x00000023, 0xFFFFFFFF, fun _ => .motorSetDeadband⟩ ]

/-- The servo rows of R102. -/
def servoRows : List Row :=
  [ ⟨0x00000030, 0xFFFFFFFF, fun _ => .servoInit⟩,
    ⟨0x00000031, 0xFFFFF0FF, fun w => .servoSetAngle w.f1⟩ ]

/-- The fifteen rows of R102. -/
def commandRows : List Row := adcRows ++ pwmRows ++ motorRows ++ servoRows

/-! ## The decoder (R103, R106) -/

/-- Why a word is illegal: the three conditions of R103. The block records none of it but the code
`ILLEGAL_COMMAND`. -/
inductive IllegalWord where
  /-- The `OPC` is not in the table. -/
  | unassignedOpcode
  /-- The `RSV` field is not 0. -/
  | reservedFieldNonzero
  /-- A field the command does not use is not 0. -/
  | unusedFieldNonzero
deriving DecidableEq, Repr

/-- The opcodes of R102. -/
def assignedOpcodes : List Byte := commandRows.map fun r => Word.opc r.fixed

/-- The first condition of R103, in the order written, that makes an uncovered word illegal. -/
def illegalReason (w : Word) : IllegalWord :=
  if w.opc ∉ assignedOpcodes then .unassignedOpcode
  else if w.rsv ≠ 0#8 then .reservedFieldNonzero
  else .unusedFieldNonzero

/-- `decode(w)` of R106: the row the word matches, else illegal by name. -/
def decode (w : Word) : Except IllegalWord Instr :=
  match commandRows.find? (fun r => r.covers w) with
  | some r => .ok (r.build w)
  | none => .error (illegalReason w)

/-- The decoder on an instruction whose bits are `w` as spec/opcode_table.json numbers them: a command is one 32-bit
word and nothing longer (R101). -/
def decodeTableWord (nbits w : Nat) : Option Instr :=
  if nbits ≤ 32 then
    match decode (BitVec.ofNat 32 (w % 2 ^ nbits)) with
    | .ok i => some i
    | .error _ => none
  else none

/-! ## The encoder (R100, R102) -/

/-- The format of R100: `OPC` in bits 7:0, `F1` in 11:8, `F2` in 15:12, `F3` in 23:16, and `RSV` = 0. -/
def packCommand (opc : Byte) (f1 f2 : Sel) (f3 : Byte) : Word :=
  opc.setWidth 32 ||| f1.setWidth 32 <<< 8 ||| f2.setWidth 32 <<< 12 ||| f3.setWidth 32 <<< 16

/-- The command word of a command (R102); a field the command does not use is 0 (R103). -/
def encode : Instr → Word
  | .adcInit => packCommand 0x01 0 0 0
  | .adcSample ch => packCommand 0x02 ch 0 0
  | .adcAvg ch times => packCommand 0x03 ch 0 times
  | .adcToVolt => packCommand 0x04 0 0 0
  | .adcSetTimeout => packCommand 0x05 0 0 0
  | .pwmInit t => packCommand 0x10 t 0 0
  | .pwmSetDuty t c => packCommand 0x11 t c 0
  | .pwmStart t c => packCommand 0x12 t c 0
  | .pwmStop t c => packCommand 0x13 t c 0
  | .motorInit => packCommand 0x20 0 0 0
  | .motorSetSpeed id => packCommand 0x21 id 0 0
  | .motorStop id => packCommand 0x22 id 0 0
  | .motorSetDeadband => packCommand 0x23 0 0 0
  | .servoInit => packCommand 0x30 0 0 0
  | .servoSetAngle id => packCommand 0x31 id 0 0

end Sys2Proof
end

