-- ==== Sys2Proof/Machine/Bits.lean ====
section
/-! DEFINITION. Bit-field helpers for the register views (R11, R83). -/

namespace Sys2Proof.Machine

/-- The 32-bit word whose bit `i` is `b` and whose other bits are 0. -/
def bitAt (b : Bool) (i : Nat) : Word := if b then 1#32 <<< i else 0#32

/-- The 32-bit word whose bits from `i` up are the field `v` and whose other bits are 0. -/
def fieldAt {n : Nat} (v : BitVec n) (i : Nat) : Word := v.setWidth 32 <<< i

/-- The byte of a register at byte position `i`, little-endian: bits 7:0 are the byte at position 0 (R83). -/
def byteOf (w : Word) (i : Nat) : Byte := w.extractLsb' (8 * i) 8

end Sys2Proof.Machine
end

