-- ==== Sys2Proof/Machine/Agents.lean ====
section
/-! DEFINITION. The names of the block's parts (timers, channels, actuators, pins) and the agents' moves: what one
atomic step of the block can be (R32). -/

namespace Sys2Proof

/-- A timer instance, `T0`, `T1` or `T2` (`NUM_TIMERS = 3`, R9). -/
inductive TimerId where
  | t0
  | t1
  | t2
deriving DecidableEq, Repr, Inhabited

/-- A channel of a timer, 1 to 4 (`PWM_CHANNELS`, R9, R46). -/
inductive ChanId where
  | c1
  | c2
  | c3
  | c4
deriving DecidableEq, Repr, Inhabited

/-- A motor id or a servo id, 1 or 2 (R105). -/
inductive ActuatorId where
  | one
  | two
deriving DecidableEq, Repr, Inhabited

/-- A pin identity of the OPEN pin tables (R40); nothing is done with it but recording it. -/
abbrev PinId := Nat

/-- The electrical mode a pin-configuration request asks for (R40). -/
inductive PinMode where
  | analog
  | afPushPull
deriving DecidableEq, Repr, Inhabited

/-- One pin-configuration request `PinCfg(pin, mode, af)` (R40). -/
structure PinCfg where
  pin  : PinId
  mode : PinMode
  af   : Nat
deriving DecidableEq, Repr, Inhabited

/-- One access of the host to byte address `addr`, `n` bytes wide (R13, R82, R87, R88). -/
inductive HostAccess where
  | read  (addr n : Nat)
  | write (addr n : Nat) (w : Word)
deriving DecidableEq, Repr, Inhabited

/-- The three steps of the converter agent (R44). `k3` carries the drawn value: the sampled analog input, which no
rule predicts. -/
inductive ConverterEvent where
  | k1
  | k2
  | k3 (v : BitVec 12)
deriving DecidableEq, Repr, Inhabited

/-- One move: an agent of R32 taking one step, or the system reset of R280. -/
inductive Move where
  | host (a : HostAccess)
  | sequencer
  | converter (e : ConverterEvent)
  | tick (t : TimerId)
  | reset
deriving DecidableEq, Repr, Inhabited

end Sys2Proof
end

