-- ==== Sys2Proof/Config.lean ====
section
/-! DEFINITION. The implementation parameters of R9: the values the spec fixes, the parameter set that may be
overridden within R10, and the OPEN parameters as constants without a body. -/

namespace Sys2Proof

/-! ## Parameters the spec gives a value (R9) -/

/-- `ADC_MAX`: the resolution ceiling of the 12-bit converter. -/
def Config.adcMax : Nat := 4095

/-- `ADC_CHANNELS`: the channels are 0 to 9. -/
def Config.adcChannels : Nat := 10

/-- `VREF`, the exact decimal 33/10. -/
def Config.vref : Rat := 33 / 10

/-- `ACC_BITS`, the accumulator width. -/
def Config.accBits : Nat := 20

/-- `TIMES_MAX`, the largest sample count. -/
def Config.timesMax : Nat := 255

/-- `SYSCLK_HZ`. -/
def Config.sysclkHz : Nat := 72000000

/-- `TICK_HZ`, the intermediate tick. -/
def Config.tickHz : Nat := 1000000

/-- `PSC_BITS`, the prescaler width. -/
def Config.pscBits : Nat := 16

/-- `ADC_DIV`, the ADC clock divisor. -/
def Config.adcDiv : Nat := 6

/-- `SMP_MAX_CODE`, the code of the longest sample time. -/
def Config.smpMaxCode : Nat := 7

/-- `MOTOR_TIMER`. -/
def Config.motorTimer : TimerId := .t1

/-- `MOTOR_FREQ_HZ`. -/
def Config.motorFreqHz : Nat := 1000

/-- `SERVO_TIMER`. -/
def Config.servoTimer : TimerId := .t2

/-- `SERVO_FREQ_HZ`. -/
def Config.servoFreqHz : Nat := 50

/-- `SERVO_DEFAULT_ANGLE`, 90 degrees, as the binary32 pattern R231 writes. -/
def Config.servoDefaultAngle : Word := 0x42B40000

/-- The two classes of timer of R9 (`TIMER_CLASS`). -/
inductive TimerClass where
  | advanced
  | generalPurpose
deriving DecidableEq, Repr

/-- `TIMER_CLASS[t]`: T0 advanced, T1 and T2 general-purpose. -/
def Config.timerClass : TimerId → TimerClass
  | .t0 => .advanced
  | .t1 => .generalPurpose
  | .t2 => .generalPurpose

/-- The static clock table of R9 and R173: the full system clock for an advanced timer, half of it for a
general-purpose one. -/
def Config.classClkHz : TimerClass → Nat
  | .advanced => Config.sysclkHz
  | .generalPurpose => Config.sysclkHz / 2

/-! ## The parameter set that may be overridden (R9, 93 O5) -/

/-- A parameter set: `TIMER_CLK_HZ[t]` and `TIMER_BITS`, the two parameters R9 lets be overridden within R10. -/
structure Params where
  clkHz0    : Nat
  clkHz1    : Nat
  clkHz2    : Nat
  timerBits : Nat
deriving DecidableEq, Repr, Inhabited

/-- The default parameter set of R9: 72 MHz, 36 MHz, 36 MHz and 16 bits. -/
def Config.defaultParams : Params where
  clkHz0 := Config.classClkHz (Config.timerClass .t0)
  clkHz1 := Config.classClkHz (Config.timerClass .t1)
  clkHz2 := Config.classClkHz (Config.timerClass .t2)
  timerBits := 16

/-! ## OPEN parameters (R9, 93 O1, O2, O4): constants without a body, log entry 7. `CONVERTER_LIVE` is an
argument of the fairness of a run (Safety.lean), for no step reads it (R297) -/

/-- The 256-byte page the window stands on. -/
opaque Config.basePage : Nat

/-- `ASPA_BASE`, a multiple of 256 (R80). -/
def Config.aspaBase : Nat := 256 * Config.basePage

/-- How far the ADC's documented ceiling lies above its clock. -/
opaque Config.adcClkHeadroom : Nat

/-- `ADC_CLK_MAX_HZ`, at least `SYSCLK_HZ / ADC_DIV` (R10, R134). -/
def Config.adcClkMaxHz : Nat := Config.sysclkHz / Config.adcDiv + Config.adcClkHeadroom

/-- `ADC_PINS` (R40). -/
opaque Config.adcPins : List PinId

/-- `MOTOR_PINS` (R40). -/
opaque Config.motorPins : List PinId

/-- `SERVO_PINS` (R40). -/
opaque Config.servoPins : List PinId

/-- `AF_MOTOR` (R40). -/
opaque Config.afMotor : Nat

/-- `AF_SERVO` (R40). -/
opaque Config.afServo : Nat

/-- `SETTLE`; no rule depends on it (R135, R298). -/
opaque Config.settle : Nat

/-- `CONV_LATENCY`; no rule depends on it (R298). -/
opaque Config.convLatency : Nat

/-- `CAL_LATENCY`; no rule depends on it (R298). -/
opaque Config.calLatency : Nat

/-! ## The free value: the world's choices -/

/-- FREE VALUE (log entry 2): which agent moves next, what the host asks for and what the converter draws, when the
state's agenda does not say. The order of the agents is left open (R32, 93 O8) and so is each conversion value
(R44, 93 O7): nothing constrains this constant. -/
opaque Config.worldMove : Nat → Move

end Sys2Proof
end

