-- ==== Sys2Proof/Machine/State.lean ====
section
/-! DEFINITION. The architectural state of the block (R33) as plain data, its reset value (R280), and the reasons a
step can stop. -/

namespace Sys2Proof.Machine

/-- `SEQ.MODE` (R31). -/
inductive SeqMode where
  | idle
  | run
deriving DecidableEq, Repr

/-- The micro-step labels of the command rules (R16, R31): `S1` to `S10`. -/
inductive MicroStep where
  | s1
  | s2
  | s3
  | s4
  | s5
  | s6
  | s7
  | s8
  | s9
  | s10
deriving DecidableEq, Repr

/-- The sequencer state `SEQ` (R31). -/
structure Seq where
  mode  : SeqMode
  cmd   : Word
  arg   : Word
  step  : Option MicroStep
  acc   : BitVec 20
  k     : BitVec 8
  polls : Word
  val   : BitVec 12
deriving DecidableEq, Repr

/-- The errors a command can end with (R254). -/
inductive ErrorCode where
  | invalidArgument
  | configurationError
  | hardwareTimeout
  | illegalCommand
  | notReady
deriving DecidableEq, Repr

/-- The stored fields of `STATUS` (R36); `BUSY`, `ADC_READY` and `TIM_READY[t]` are views of other state. -/
structure Status where
  done      : Bool
  lastErr   : BitVec 4
  errSticky : Bool
  ovr       : Bool
deriving DecidableEq, Repr

/-- The ADC state (R41). -/
structure Adc where
  adon   : Bool
  cont   : Bool
  align  : Bool
  swtrig : Bool
  rstcal : Bool
  cal    : Bool
  eoc    : Bool
  ready  : Bool
  div    : BitVec 4
  smp    : BitVec 3
  chsel  : BitVec 4
  dr     : BitVec 16
  pend   : Bool
deriving DecidableEq, Repr

/-- The state of one channel of a timer (R46). The compare copies are `TIMER_BITS` wide; 32 bits hold the widest
`TIMER_BITS` of R10 (log entry 6). -/
structure Channel where
  ccrPre : BitVec 32
  ccrAct : BitVec 32
  cce    : Bool
  pwm1   : Bool
  ocpe   : Bool
deriving DecidableEq, Repr

/-- The state of one timer instance (R46). `ARR`, `CNT` and the compare copies are `TIMER_BITS` wide, held in 32 bits
(log entry 6); the prescaler fields are `PSC_BITS` = 16 bits wide. -/
structure Timer where
  cen    : Bool
  arpe   : Bool
  ready  : Bool
  pscPre : BitVec 16
  pscAct : BitVec 16
  arrPre : BitVec 32
  arrAct : BitVec 32
  cnt    : BitVec 32
  pscCnt : BitVec 16
  ch1    : Channel
  ch2    : Channel
  ch3    : Channel
  ch4    : Channel
deriving DecidableEq, Repr

/-- The whole state: R33's list, then the four fields that are the model's own (log entries 5 and 6): the parameter
set the run is taken with, the agenda of moves the world has already chosen, the count of moves taken from the free
value, and the data the host's last read returned. -/
structure State where
  arg        : Word
  status     : Status
  result     : Word
  errCmd     : Word
  timeout    : Word
  deadband   : BitVec 7
  seq        : Seq
  adc        : Adc
  tim0       : Timer
  tim1       : Timer
  tim2       : Timer
  pinLog     : List PinCfg
  params     : Params
  agenda     : List Move
  worldCount : Nat
  hostRdata  : Word
deriving DecidableEq, Repr

/-! ## Reset values (R280) -/

/-- `SEQ` after reset. -/
def Seq.reset : Seq where
  mode := .idle
  cmd := 0
  arg := 0
  step := none
  acc := 0
  k := 0
  polls := 0
  val := 0

/-- The stored fields of `STATUS` after reset. -/
def Status.reset : Status where
  done := false
  lastErr := 0
  errSticky := false
  ovr := false

/-- The ADC state after reset. -/
def Adc.reset : Adc where
  adon := false
  cont := false
  align := false
  swtrig := false
  rstcal := false
  cal := false
  eoc := false
  ready := false
  div := 0
  smp := 0
  chsel := 0
  dr := 0
  pend := false

/-- A channel after reset. -/
def Channel.reset : Channel where
  ccrPre := 0
  ccrAct := 0
  cce := false
  pwm1 := false
  ocpe := false

/-- A timer after reset. -/
def Timer.reset : Timer where
  cen := false
  arpe := false
  ready := false
  pscPre := 0
  pscAct := 0
  arrPre := 0
  arrAct := 0
  cnt := 0
  pscCnt := 0
  ch1 := Channel.reset
  ch2 := Channel.reset
  ch3 := Channel.reset
  ch4 := Channel.reset

/-- The block right after reset (R280). The model's own fields stand at the values of log entry 5. -/
def State.reset : State where
  arg := 0
  status := Status.reset
  result := 0
  errCmd := 0
  timeout := 0
  deadband := 0
  seq := Seq.reset
  adc := Adc.reset
  tim0 := Timer.reset
  tim1 := Timer.reset
  tim2 := Timer.reset
  pinLog := []
  params := Config.defaultParams
  agenda := []
  worldCount := 0
  hostRdata := 0

/-! ## The reasons a step can stop -/

/-- Faults. -/
inductive Fault where
  /-- `BusError(a, n)`: raised by a host access to the window that is not a word-aligned 32-bit access (R82, R260).
  The block's state is unchanged. Safe: it is the spec's own fault. -/
  | busError (addr n : Nat)
  /-- Raised by a sequencer step whose `SEQ.STEP` is no micro-step of the running command. Every reachable state is
  free of it (the invariant says so). Safe: the model stops where the spec gives no step. -/
  | noMicroStep
deriving DecidableEq, Repr

/-- Refusals. -/
inductive Refusal where
  /-- Raised by `exec` alone, for an instruction that has no meaning yet. Safe. -/
  | notModelled (mnemonic : String)
  /-- Raised by every step of a state whose parameter set breaks R10, and by every run of a host program from one: the
  spec says the model gives it no meaning (R10, R260). Safe. -/
  | parameterSet
deriving DecidableEq, Repr

/-- What one step of the block answers. -/
abbrev Result := Host.Outcome State Fault Refusal

end Sys2Proof.Machine
end

