-- ==== Sys2Proof/Machine/Flags.lean ====
section
/-! DEFINITION. The flags of R51: the `STATUS` view and its write-1-to-clear bits (R36), the error codes (R254), and
what the end and the acceptance of a command do to the stored fields of `STATUS` (R250 to R253). -/

namespace Sys2Proof.Machine

/-- `code(E)` (R254); code 0 is `OK`. -/
def ErrorCode.code : ErrorCode → BitVec 4
  | .invalidArgument => 1
  | .configurationError => 2
  | .hardwareTimeout => 3
  | .illegalCommand => 4
  | .notReady => 5

/-- `STATUS.BUSY`, a view of `SEQ.MODE` (R36). -/
def Seq.busy (q : Seq) : Bool := q.mode == .run

/-- The 32 bits a host read of `STATUS` returns (R36). -/
def State.statusView (s : State) : Word :=
  bitAt s.seq.busy 0 ||| bitAt s.status.done 1 ||| fieldAt s.status.lastErr 4 ||| bitAt s.status.errSticky 8
    ||| bitAt s.status.ovr 9 ||| bitAt s.adc.ready 10
    ||| bitAt s.tim0.ready 16 ||| bitAt s.tim1.ready 17 ||| bitAt s.tim2.ready 18

/-- A host write of `w` to `STATUS`: the W1C bits 8 and 9 (R36, R88). -/
def Status.hostWrite (f : Status) (w : Word) : Status :=
  { f with
    errSticky := f.errSticky && !w.getLsbD 8
    ovr := f.ovr && !w.getLsbD 9 }

/-- The stored fields when a command is accepted (R250). -/
def Status.accepted (f : Status) : Status := { f with done := false }

/-- The stored fields when a `CMD` write is dropped (R251). -/
def Status.dropped (f : Status) : Status := { f with ovr := true }

/-- The stored fields when a command completes (R252). -/
def Status.completed (f : Status) : Status := { f with lastErr := 0, done := true }

/-- The stored fields when a command ends with an error (R253). -/
def Status.failed (f : Status) (e : ErrorCode) : Status :=
  { f with lastErr := e.code, errSticky := true, done := true }

end Sys2Proof.Machine
end

