-- ==== Sys2Proof/Machine/Operands.lean ====
section
/-! DEFINITION. How operands are read (R104, R105), the numeric primitives of R14 and R15, and the arithmetic the
commands share: the frequency divider (R172, R173), the duty mapper (R176), the motor encoder (R212, R218), the servo
scale (R232), the saturating add (R140) and the voltage (R142). All arithmetic is exact (R11, R17). -/

namespace Sys2Proof.Machine

/-! ## Selectors (R105) -/

/-- A timer selector: 0 to 2; the values 3 to 15 are invalid. -/
def timerOfSel (t : Sel) : Option TimerId :=
  if t = 0#4 then some .t0 else if t = 1#4 then some .t1 else if t = 2#4 then some .t2 else none

/-- A PWM channel selector: 1 to 4; the values 0 and 5 to 15 are invalid. -/
def chanOfSel (c : Sel) : Option ChanId :=
  if c = 1#4 then some .c1 else if c = 2#4 then some .c2 else if c = 3#4 then some .c3
  else if c = 4#4 then some .c4 else none

/-- A motor or servo id: 1 or 2; the values 0 and 3 to 15 are invalid. -/
def actuatorOfSel (id : Sel) : Option ActuatorId :=
  if id = 1#4 then some .one else if id = 2#4 then some .two else none

/-! ## Readings of the 32-bit operand (R104) -/

/-- `u32(v)` (R11). -/
def u32 (w : Word) : Nat := w.toNat

/-- `sint32(v)` (R11): two's complement. -/
def sint32 (w : Word) : Int := w.toInt

/-- The exponent field of a binary32 pattern, bits 30:23 (R15). -/
def expField (f : Word) : BitVec 8 := f.extractLsb' 23 8

/-- The fraction field of a binary32 pattern, bits 22:0 (R15). -/
def fracField (f : Word) : BitVec 23 := f.extractLsb' 0 23

/-- The sign of a binary32 pattern, bit 31 (R15). -/
def signField (f : Word) : Bool := f.getLsbD 31

/-- `isNaN(f)` (R14). -/
def isNaN (f : Word) : Bool := expField f == 0xFF#8 && fracField f != 0#23

/-- `+inf` (R14). -/
def posInf : Word := 0x7F800000#32

/-- `-inf` (R14). -/
def negInf : Word := 0xFF800000#32

/-- `Q(f)`, the exact value of a finite binary32 pattern (R14, R15): bias 127, so a normal pattern is
`(2^23 + frac) * 2^(exp - 150)` and a subnormal one `frac * 2^(-149)`. -/
def finiteValue (f : Word) : Rat :=
  let mag : Rat :=
    if expField f = 0#8 then ((fracField f).toNat : Rat) / 2 ^ 149
    else ((2 ^ 23 + (fracField f).toNat : Nat) : Rat) * 2 ^ (expField f).toNat / 2 ^ 150
  if signField f then -mag else mag

/-! ## Rounding and clamping (R14) -/

/-- `clamp(q, lo, hi) = min(max(q, lo), hi)`. -/
def clampRat (q lo hi : Rat) : Rat := min (max q lo) hi

/-- `rhu(q) = floor(q + 1/2)` for `q >= 0`: to the nearest integer, ties up. -/
def rhu (q : Rat) : Nat := ⌊q + 1 / 2⌋₊

/-- The quotient `n / d` rounded to the nearest integer, ties to even. -/
def roundTiesEven (n d : Nat) : Nat :=
  let m := n / d
  let r := n % d
  if 2 * r < d then m
  else if d < 2 * r then m + 1
  else if m % 2 = 0 then m else m + 1

/-- The exponent of the binary32 number line at the positive rational `n / d`, shifted by 126 so that it is a natural
number: the greatest `e` with `2^e <= n/d`, but at least -126, where the subnormals lie. -/
def binadeShifted (n d : Nat) : Nat :=
  let lo := n.log2 + 126 - d.log2
  if n * 2 ^ 126 < d * 2 ^ lo then lo - 1 else lo

/-- The binary32 pattern nearest the rational `n / d >= 0`, ties to the even significand (R14); log entry 13 for the
values too large for the format. -/
def rneMagnitude (n d : Nat) : Word :=
  let e := binadeShifted n d
  let m := roundTiesEven (n * 2 ^ 149) (d * 2 ^ e)
  let bits := e * 2 ^ 23 + m
  if n = 0 then 0#32 else if posInf.toNat ≤ bits then posInf else BitVec.ofNat 32 bits

/-- `rne32(q)` (R14). -/
def rne32 (q : Rat) : Word :=
  if q < 0 then rneMagnitude q.num.natAbs q.den ||| 0x80000000#32 else rneMagnitude q.num.natAbs q.den

/-! ## Commands' arithmetic -/

/-- `SAT_ADD(acc, v) = min(acc + v, 2^ACC_BITS - 1)` (R140). -/
def satAdd (acc : BitVec 20) (v : BitVec 12) : BitVec 20 :=
  BitVec.ofNat 20 (min (acc.toNat + v.toNat) (2 ^ Config.accBits - 1))

/-- The truncated mean `floor(acc / times)` (R139). -/
def truncatedMean (acc : BitVec 20) (times : Byte) : Word := BitVec.ofNat 32 (acc.toNat / times.toNat)

/-- The voltage of a reading, `rne32(r * 33 / 40950)` (R142): the exact value of `r / 4095 * 33/10`, rounded once. -/
def voltage (r : Nat) : Word := rne32 ((r : Rat) * 33 / 40950)

/-- `PERIOD(f)` (R172) for timers of `timerBits` bits. -/
def periodOf (timerBits f : Nat) : Except ErrorCode Nat :=
  if f = 0 then .error .invalidArgument
  else if Config.tickHz < f then .error .invalidArgument
  else if 2 ^ timerBits - 2 < Config.tickHz / f - 1 then .error .configurationError
  else .ok (Config.tickHz / f - 1)

/-- `TIMER_CLK_HZ[t]` of a parameter set (R9). -/
def clkHz (p : Params) : TimerId → Nat
  | .t0 => p.clkHz0
  | .t1 => p.clkHz1
  | .t2 => p.clkHz2

/-- `PSCVAL(t) = TIMER_CLK_HZ[t] / TICK_HZ - 1` (R173). -/
def pscVal (p : Params) (t : TimerId) : Nat := clkHz p t / Config.tickHz - 1

/-- A binary32 operand clamped to `[0, hi]`: a NaN and `-inf` act as 0 and `+inf` as `hi` (R176, R232). -/
def clampedOperand (f : Word) (hi : Rat) : Rat :=
  if isNaN f then 0
  else if f = negInf then 0
  else if f = posInf then hi
  else clampRat (finiteValue f) 0 hi

/-- `PULSE(A, t)` (R176) for the period `arrPre` of the timer. -/
def pulse (f : Word) (arrPre : Nat) : Nat := rhu (clampedOperand f 100 * ((arrPre : Rat) + 1) / 100)

/-- `SPULSE(A, t)` (R232) for the period `arrPre` of the timer: the duty `d = 5/2 + (a / 180) * 10` is exact. -/
def servoPulse (f : Word) (arrPre : Nat) : Nat :=
  rhu ((5 / 2 + clampedOperand f 180 / 180 * 10) * ((arrPre : Rat) + 1) / 100)

/-- `MPULSE(m)` (R218) for the period `arrPre` of the motor timer. -/
def motorPulse (m arrPre : Nat) : Nat := rhu ((m : Rat) * ((arrPre : Rat) + 1) / 100)

/-- `ENCODE(s)` (R212): the forward and the reverse duty, in whole percent. -/
def encodeSpeed (deadband : Nat) (s : Int) : Nat × Nat :=
  let v : Int := min (max s (-100)) 100
  let m : Nat := if v.natAbs ≤ deadband then 0 else v.natAbs
  if 0 ≤ v then (m, 0) else (0, m)

/-- `FWD(id)`, the forward channel of a motor (R217). -/
def fwdChan : ActuatorId → ChanId
  | .one => .c1
  | .two => .c3

/-- `REV(id)`, the reverse channel of a motor (R217). -/
def revChan : ActuatorId → ChanId
  | .one => .c2
  | .two => .c4

/-- `SCH(id)`, the channel of a servo (R230). -/
def servoChan : ActuatorId → ChanId
  | .one => .c1
  | .two => .c2

end Sys2Proof.Machine
end

