-- ==== Sys2Proof/Machine/Timer.lean ====
section
/-! DEFINITION. The timer hardware (R170 to R177): channels by number, the tick, the update event, the forced load, the
compare write and the output lines. -/

namespace Sys2Proof.Machine

/-! ## Channels by number (R46) -/

/-- Channel `c` of a timer. -/
def Timer.ch (t : Timer) : ChanId → Channel
  | .c1 => t.ch1
  | .c2 => t.ch2
  | .c3 => t.ch3
  | .c4 => t.ch4

/-- The timer with channel `c` replaced. -/
def Timer.setCh (t : Timer) (c : ChanId) (x : Channel) : Timer :=
  match c with
  | .c1 => { t with ch1 := x }
  | .c2 => { t with ch2 := x }
  | .c3 => { t with ch3 := x }
  | .c4 => { t with ch4 := x }

/-- `for c in 1..4` of R171, R174 and R180: the same change on every channel. -/
def Timer.mapCh (t : Timer) (f : Channel → Channel) : Timer :=
  { t with ch1 := f t.ch1, ch2 := f t.ch2, ch3 := f t.ch3, ch4 := f t.ch4 }

/-! ## The update event and the forced load -/

/-- A channel at the update event: the compare preload moves when `OCPE` is set (R171). -/
def Channel.update (x : Channel) : Channel := if x.ocpe then { x with ccrAct := x.ccrPre } else x

/-- `UPDATE(t)` (R171). -/
def Timer.update (t : Timer) : Timer :=
  { t.mapCh Channel.update with
    pscAct := t.pscPre
    arrAct := if t.arpe then t.arrPre else t.arrAct }

/-- A channel at the forced load (R174). -/
def Channel.load (x : Channel) : Channel := { x with ccrAct := x.ccrPre }

/-- `FORCED_LOAD(t)` (R174). -/
def Timer.forcedLoad (t : Timer) : Timer :=
  { t.mapCh Channel.load with
    pscAct := t.pscPre
    arrAct := t.arrPre
    cnt := 0
    pscCnt := 0
    cen := true }

/-! ## The tick -/

/-- The body of `TICK(t)` (R170), on a timer whose `CEN` is 1. `PSC_CNT` counts at every tick, as R170 writes it and R17,
R299 and the tick trace of 95_test_vectors.md have it (log entry 22, beside R50). -/
def Timer.tick (t : Timer) : Timer :=
  if t.pscCnt < t.pscAct then { t with pscCnt := t.pscCnt + 1 }
  else if t.arrAct ≤ t.cnt then Timer.update { t with pscCnt := 0, cnt := 0 }
  else { t with pscCnt := 0, cnt := t.cnt + 1 }

/-! ## Configuration and compare writes -/

/-- A channel at `PWM_INIT`: PWM mode 1, with output-compare preload enabled (R180). -/
def Channel.configure (x : Channel) : Channel := { x with pwm1 := true, ocpe := true }

/-- Micro-step S2 of `PWM_INIT` on one timer (R180): the preloads and the mode bits, the forced load on a stopped
timer, and `READY`. -/
def Timer.configure (t : Timer) (psc : BitVec 16) (period : BitVec 32) : Timer :=
  let t' := { t.mapCh Channel.configure with pscPre := psc, arrPre := period, arpe := true }
  { (if t'.cen then t' else t'.forcedLoad) with ready := true }

/-- `WRITE_CCR` on one channel (R183). -/
def Channel.writeCcr (x : Channel) (v : BitVec 32) : Channel :=
  if x.ocpe then { x with ccrPre := v } else { x with ccrPre := v, ccrAct := v }

/-- `WRITE_CCR(t, c, v)` (R183). -/
def Timer.writeCcr (t : Timer) (c : ChanId) (v : BitVec 32) : Timer := t.setCh c ((t.ch c).writeCcr v)

/-- The output enable of channel `c` set or cleared (R185, R186). -/
def Timer.setCce (t : Timer) (c : ChanId) (b : Bool) : Timer := t.setCh c { t.ch c with cce := b }

/-! ## The outputs -/

/-- The output line `OUT[t][c]` (R177). -/
def Timer.out (t : Timer) (c : ChanId) : Bool :=
  (t.ch c).cce && (t.ch c).pwm1 && decide (t.cnt < (t.ch c).ccrAct)

end Sys2Proof.Machine
end

