-- ==== Sys2Proof/Machine/Ops.lean ====
section
/-! DEFINITION. The operations the commands share: timers by name, accepting, dropping, completing and failing a
command (R250 to R253), moving to the next micro-step (R16), the poll of a wait (R137), starting and finishing a
conversion (R136, R148), results (R37), pin requests (R40), and the parameter check of R10. -/

namespace Sys2Proof.Machine

/-! ## The parameter check (R10) -/

/-- `TIMER_CLK_HZ` of one timer is a positive multiple of `TICK_HZ` whose prescaler value fits (R10). -/
def clkValid (hz : Nat) : Bool :=
  decide (0 < hz) && decide (hz % Config.tickHz = 0) && decide (hz / Config.tickHz - 1 ≤ 2 ^ Config.pscBits - 1)

/-- The constraints of R10 on the parameters a parameter set holds. -/
def paramsValid (p : Params) : Bool :=
  clkValid p.clkHz0 && clkValid p.clkHz1 && clkValid p.clkHz2
    && decide (15 ≤ p.timerBits) && decide (p.timerBits ≤ 32)

/-! ## Timers by name (R46) -/

/-- `T[t]`. -/
def State.timer (s : State) : TimerId → Timer
  | .t0 => s.tim0
  | .t1 => s.tim1
  | .t2 => s.tim2

/-- `T[t]` replaced. -/
def State.setTimer (s : State) (t : TimerId) (x : Timer) : State :=
  match t with
  | .t0 => { s with tim0 := x }
  | .t1 => { s with tim1 := x }
  | .t2 => { s with tim2 := x }

/-- `WRITE_CCR(t, c, v)` (R183); that `v` fits its field is the invariant's (log entry 21). -/
def State.writeCcr (s : State) (t : TimerId) (c : ChanId) (v : Nat) : State :=
  s.setTimer t ((s.timer t).writeCcr c (BitVec.ofNat 32 v))

/-- `T[t].CCE[c] <- b` (R185, R186). -/
def State.setCce (s : State) (t : TimerId) (c : ChanId) (b : Bool) : State :=
  s.setTimer t ((s.timer t).setCce c b)

/-- Micro-step S2 of `PWM_INIT` for timer `t` and period `p`, without its `complete` (R180; R211 and R231 reuse it). -/
def State.configureTimer (s : State) (t : TimerId) (p : Nat) : State :=
  s.setTimer t ((s.timer t).configure (BitVec.ofNat 16 (pscVal s.params t)) (BitVec.ofNat 32 p))

/-! ## Acceptance and end of a command -/

/-- The acceptance of the command word `w` (R250). -/
def State.accept (s : State) (w : Word) : State :=
  { s with
    seq := { s.seq with cmd := w, arg := s.arg, mode := .run, step := some .s1 }
    status := s.status.accepted }

/-- `DROP(w)` (R251): the word is lost. -/
def State.drop (s : State) : State := { s with status := s.status.dropped }

/-- `CMD_WRITE(w)` (R250, R251). -/
def State.cmdWrite (s : State) (w : Word) : State :=
  match s.seq.mode with
  | .run => s.drop
  | .idle => s.accept w

/-- The sequencer back in `IDLE` (R252, R253). -/
def Seq.ended (q : Seq) : Seq := { q with mode := .idle, step := none }

/-- `complete` (R252). -/
def State.complete (s : State) : State := { s with status := s.status.completed, seq := s.seq.ended }

/-- `raise E` (R253): the one way a command ends with an error. The block's whole exception entry (R262): the code in
`LAST_ERR`, the failing word in `ERR_CMD`, `ERR_STICKY` set, the sequencer idle. -/
def State.raise (s : State) (e : ErrorCode) : State :=
  { s with status := s.status.failed e, errCmd := s.seq.cmd, seq := s.seq.ended }

/-- The host's acknowledgement of an error (R263), a write of `w` to `STATUS` (R88): the block's only counterpart of a
return from an exception. -/
def State.acknowledge (s : State) (w : Word) : State := { s with status := s.status.hostWrite w }

/-! ## Micro-steps -/

/-- `SEQ.STEP <- l`: the sequencer goes on to micro-step `l` (R16, R31). -/
def State.goto (s : State) (l : MicroStep) : State := { s with seq := { s.seq with step := some l } }

/-- `SEQ.POLLS <- 0`. -/
def State.clearPolls (s : State) : State := { s with seq := { s.seq with polls := 0 } }

/-- One poll micro-step of `WAIT until C` (R137): `cond` is what the poll reads of `C`, and `onward` the state in which
the command goes on. -/
def State.poll (s : State) (cond : Bool) (onward : State) : State :=
  if cond then onward
  else if s.timeout = 0#32 then s
  else
    let s' := { s with seq := { s.seq with polls := s.seq.polls + 1 } }
    if s.seq.polls + 1 = s.timeout then
      State.raise { s' with adc := { s.adc with pend := false } } .hardwareTimeout
    else s'

/-- `START(ch)` (R136). -/
def State.startConversion (s : State) (ch : Sel) : State :=
  { s with
    adc := { s.adc with chsel := ch, eoc := false, pend := true }
    seq := { s.seq with polls := 0 } }

/-- What the poll that finds `EOC = 1` does in the same micro-step (R148): `SEQ.VAL <- ADC.DR[11:0]` and
`ADC.EOC <- 0`. -/
def State.takeReading (s : State) : State :=
  { s with
    seq := { s.seq with val := s.adc.dr.setWidth 12 }
    adc := { s.adc with eoc := false } }

/-! ## Results and pin requests -/

/-- `RESULT <- v` (R37). -/
def State.setResult (s : State) (v : Word) : State := { s with result := v }

/-- `emit PinCfg(p, mode, af)` for each pin of a table, in table order (R13, R40). -/
def State.emitPins (s : State) (pins : List PinId) (mode : PinMode) (af : Nat) : State :=
  { s with pinLog := s.pinLog ++ pins.map fun p => ⟨p, mode, af⟩ }

end Sys2Proof.Machine
end

