-- ==== Sys2Proof/Machine/AdcCommands.lean ====
section
/-! DEFINITION. The ADC Sampler's commands (40_adc.md) and the converter agent (R44). A command's meaning is the
micro-step `SEQ.STEP` names (R16); the legality check of R255 has passed when a meaning is called. -/

namespace Sys2Proof.Machine

/-- `ADC_INIT` (R132). -/
def execAdcInit (s : State) : Result :=
  match s.seq.step with
  | some .s1 =>
    .next (State.goto { s with adc := { s.adc with ready := false, div := BitVec.ofNat 4 Config.adcDiv } } .s2)
  | some .s2 => .next ((s.emitPins Config.adcPins .analog 0).goto .s3)
  | some .s3 =>
    .next (State.goto
      { s with
        adc := { s.adc with cont := false, swtrig := true, align := false, smp := BitVec.ofNat 3 Config.smpMaxCode } }
      .s4)
  | some .s4 => .next (State.goto { s with adc := { s.adc with adon := true } } .s5)
  | some .s5 => .next (s.goto .s6)
  | some .s6 => .next ((State.clearPolls { s with adc := { s.adc with rstcal := true } }).goto .s7)
  | some .s7 => .next (s.poll (!s.adc.rstcal) (s.goto .s8))
  | some .s8 => .next ((State.clearPolls { s with adc := { s.adc with cal := true } }).goto .s9)
  | some .s9 => .next (s.poll (!s.adc.cal) (s.goto .s10))
  | some .s10 => .next (State.complete { s with adc := { s.adc with ready := true } })
  | none => .fault .noMicroStep

/-- `ADC_SAMPLE` (R138). -/
def execAdcSample (ch : Sel) (s : State) : Result :=
  match s.seq.step with
  | some .s1 =>
    if 9#4 < ch then .next (s.raise .invalidArgument)
    else if !s.adc.ready then .next (s.raise .notReady)
    else .next (s.goto .s2)
  | some .s2 => .next ((s.startConversion ch).goto .s3)
  | some .s3 => .next (s.poll s.adc.eoc (s.takeReading.goto .s4))
  | some .s4 => .next (s.setResult (s.seq.val.setWidth 32)).complete
  | _ => .fault .noMicroStep

/-- What micro-step S4 of `ADC_AVG` does in the poll that finds the conversion done (R139): the reading is taken,
accumulated and counted, and the next sample starts unless it was the last. -/
def State.accumulate (s : State) (times : Byte) : State :=
  let s' := s.takeReading
  State.goto { s' with seq := { s'.seq with acc := satAdd s'.seq.acc s'.seq.val, k := s'.seq.k + 1 } }
    (if s.seq.k.toNat + 1 < times.toNat then .s3 else .s5)

/-- `ADC_AVG` (R139). -/
def execAdcAvg (ch : Sel) (times : Byte) (s : State) : Result :=
  match s.seq.step with
  | some .s1 =>
    if 9#4 < ch then .next (s.raise .invalidArgument)
    else if times = 0#8 then .next (s.raise .invalidArgument)
    else if !s.adc.ready then .next (s.raise .notReady)
    else .next (s.goto .s2)
  | some .s2 => .next (State.goto { s with seq := { s.seq with acc := 0, k := 0 } } .s3)
  | some .s3 => .next ((s.startConversion ch).goto .s4)
  | some .s4 => .next (s.poll s.adc.eoc (s.accumulate times))
  | some .s5 =>
    if times = 0#8 then .fault .noMicroStep
    else .next (s.setResult (truncatedMean s.seq.acc times)).complete
  | _ => .fault .noMicroStep

/-- `ADC_TO_VOLT` (R142). -/
def execAdcToVolt (s : State) : Result :=
  match s.seq.step with
  | some .s1 =>
    if Config.adcMax < u32 s.seq.arg then .next (s.raise .invalidArgument)
    else .next (s.setResult (voltage (u32 s.seq.arg))).complete
  | _ => .fault .noMicroStep

/-- `ADC_SET_TIMEOUT` (R145). -/
def execAdcSetTimeout (s : State) : Result :=
  match s.seq.step with
  | some .s1 => .next (State.complete { s with timeout := s.seq.arg })
  | _ => .fault .noMicroStep

/-- The converter's steps K1, K2 and K3 (R44) on the ADC state; a step whose condition does not hold is not enabled
and changes nothing (log entry 3). -/
def Adc.converterStep (a : Adc) : ConverterEvent → Adc
  | .k1 => if a.adon && a.rstcal then { a with rstcal := false } else a
  | .k2 => if a.adon && a.cal then { a with cal := false } else a
  | .k3 v => if a.adon && a.pend then { a with dr := v.setWidth 16, eoc := true, pend := false } else a

end Sys2Proof.Machine
end

