-- ==== Sys2Proof/Machine/MotorCommands.lean ====
section
/-! DEFINITION. The Motor Driver's commands (42_motor.md). -/

namespace Sys2Proof.Machine

/-- The checks of a motor or servo command, in the order of R213 and R233: the id, then the readiness of its timer. -/
def State.checkActuator (s : State) (t : TimerId) (id : Sel) : Except ErrorCode ActuatorId :=
  match actuatorOfSel id with
  | none => .error .invalidArgument
  | some a => if (s.timer t).ready then .ok a else .error .notReady

/-- The period a fixed carrier frequency gives (R211, R231): `floor(TICK_HZ / f) - 1`, which cannot fail under R10. -/
def carrierPeriod (f : Nat) : Nat := Config.tickHz / f - 1

/-- Both compare values of a motor's pair, forward first, in one micro-step (R213, R214). -/
def State.writePair (s : State) (a : ActuatorId) (fwd rev : Nat) : State :=
  (s.writeCcr Config.motorTimer (fwdChan a) fwd).writeCcr Config.motorTimer (revChan a) rev

/-- `MOTOR_INIT` (R211). -/
def execMotorInit (s : State) : Result :=
  match s.seq.step with
  | some .s1 => .next (s.goto .s2)
  | some .s2 => .next ((s.emitPins Config.motorPins .afPushPull Config.afMotor).goto .s3)
  | some .s3 => .next ((s.configureTimer Config.motorTimer (carrierPeriod Config.motorFreqHz)).goto .s4)
  | some .s4 =>
    .next (((((s.setCce Config.motorTimer .c1 true).setCce Config.motorTimer .c2 true).setCce
      Config.motorTimer .c3 true).setCce Config.motorTimer .c4 true).goto .s5)
  | some .s5 => .next ((s.writePair .one 0 0).writePair .two 0 0).complete
  | _ => .fault .noMicroStep

/-- `MOTOR_SET_SPEED` (R213). -/
def execMotorSetSpeed (id : Sel) (s : State) : Result :=
  match s.seq.step with
  | some .s1 =>
    match s.checkActuator Config.motorTimer id with
    | .error e => .next (s.raise e)
    | .ok a =>
      let duty := encodeSpeed s.deadband.toNat (sint32 s.seq.arg)
      let arr := (s.timer Config.motorTimer).arrPre.toNat
      .next (s.writePair a (motorPulse duty.1 arr) (motorPulse duty.2 arr)).complete
  | _ => .fault .noMicroStep

/-- `MOTOR_STOP` (R214). -/
def execMotorStop (id : Sel) (s : State) : Result :=
  match s.seq.step with
  | some .s1 =>
    match s.checkActuator Config.motorTimer id with
    | .error e => .next (s.raise e)
    | .ok a => .next (s.writePair a 0 0).complete
  | _ => .fault .noMicroStep

/-- `MOTOR_SET_DEADBAND` (R215). -/
def execMotorSetDeadband (s : State) : Result :=
  match s.seq.step with
  | some .s1 =>
    if 100 < u32 s.seq.arg then .next (s.raise .invalidArgument)
    else .next (State.complete { s with deadband := s.seq.arg.setWidth 7 })
  | _ => .fault .noMicroStep

end Sys2Proof.Machine
end

