-- ==== Sys2Proof/Machine/PwmCommands.lean ====
section
/-! DEFINITION. The PWM Generator's commands (41_pwm.md). -/

namespace Sys2Proof.Machine

/-- `PWM_INIT` (R180). S1 checks the operands; S2 computes the period again from the same latched operand, so it
cannot fail where S1 has passed. -/
def execPwmInit (t : Sel) (s : State) : Result :=
  match s.seq.step with
  | some .s1 =>
    match timerOfSel t with
    | none => .next (s.raise .invalidArgument)
    | some _ =>
      match periodOf s.params.timerBits (u32 s.seq.arg) with
      | .error e => .next (s.raise e)
      | .ok _ => .next (s.goto .s2)
  | some .s2 =>
    match timerOfSel t, periodOf s.params.timerBits (u32 s.seq.arg) with
    | some tid, .ok p => .next (s.configureTimer tid p).complete
    | _, _ => .fault .noMicroStep
  | _ => .fault .noMicroStep

/-- The checks `PWM_SET_DUTY`, `PWM_START` and `PWM_STOP` share, in the order of R182 and R185: the timer, the
channel, then readiness. -/
def State.checkChannel (s : State) (t c : Sel) : Except ErrorCode (TimerId × ChanId) :=
  match timerOfSel t with
  | none => .error .invalidArgument
  | some tid =>
    match chanOfSel c with
    | none => .error .invalidArgument
    | some cid => if (s.timer tid).ready then .ok (tid, cid) else .error .notReady

/-- `PWM_SET_DUTY` (R182). -/
def execPwmSetDuty (t c : Sel) (s : State) : Result :=
  match s.seq.step with
  | some .s1 =>
    match s.checkChannel t c with
    | .error e => .next (s.raise e)
    | .ok (tid, cid) => .next (s.writeCcr tid cid (pulse s.seq.arg (s.timer tid).arrPre.toNat)).complete
  | _ => .fault .noMicroStep

/-- `PWM_START` (R185). -/
def execPwmStart (t c : Sel) (s : State) : Result :=
  match s.seq.step with
  | some .s1 =>
    match s.checkChannel t c with
    | .error e => .next (s.raise e)
    | .ok (tid, cid) => .next (s.setCce tid cid true).complete
  | _ => .fault .noMicroStep

/-- `PWM_STOP` (R186). -/
def execPwmStop (t c : Sel) (s : State) : Result :=
  match s.seq.step with
  | some .s1 =>
    match s.checkChannel t c with
    | .error e => .next (s.raise e)
    | .ok (tid, cid) => .next (s.setCce tid cid false).complete
  | _ => .fault .noMicroStep

end Sys2Proof.Machine
end

