-- ==== Sys2Proof/Machine/ServoCommands.lean ====
section
/-! DEFINITION. The Servo Driver's commands (43_servo.md). -/

namespace Sys2Proof.Machine

/-- `WRITE_CCR(SERVO_TIMER, SCH(id), SPULSE(A, SERVO_TIMER))` (R231, R233). -/
def State.writeServo (s : State) (a : ActuatorId) (angle : Word) : State :=
  s.writeCcr Config.servoTimer (servoChan a) (servoPulse angle (s.timer Config.servoTimer).arrPre.toNat)

/-- `SERVO_INIT` (R231). -/
def execServoInit (s : State) : Result :=
  match s.seq.step with
  | some .s1 => .next (s.goto .s2)
  | some .s2 => .next ((s.emitPins Config.servoPins .afPushPull Config.afServo).goto .s3)
  | some .s3 => .next ((s.configureTimer Config.servoTimer (carrierPeriod Config.servoFreqHz)).goto .s4)
  | some .s4 => .next (((s.setCce Config.servoTimer .c1 true).setCce Config.servoTimer .c2 true).goto .s5)
  | some .s5 =>
    .next ((s.writeServo .one Config.servoDefaultAngle).writeServo .two Config.servoDefaultAngle).complete
  | _ => .fault .noMicroStep

/-- `SERVO_SET_ANGLE` (R233). -/
def execServoSetAngle (id : Sel) (s : State) : Result :=
  match s.seq.step with
  | some .s1 =>
    match s.checkActuator Config.servoTimer id with
    | .error e => .next (s.raise e)
    | .ok a => .next (s.writeServo a s.seq.arg).complete
  | _ => .fault .noMicroStep

end Sys2Proof.Machine
end

