-- ==== Sys2Proof/Machine/Dispatch.lean ====
section
/-! DEFINITION. The meaning of each command, one arm per row of the opcode table: `exec i s` is the micro-step of the
running command `i` that `SEQ.STEP` names (R16, R31). -/

namespace Sys2Proof.Machine

def exec (i : Instr) (s : State) : Host.Outcome State Fault Refusal :=
  match i with
  | .adcInit => Sys2Proof.Machine.execAdcInit s
  | .adcSample ch => Sys2Proof.Machine.execAdcSample ch s
  | .adcAvg ch times => Sys2Proof.Machine.execAdcAvg ch times s
  | .adcToVolt => Sys2Proof.Machine.execAdcToVolt s
  | .adcSetTimeout => Sys2Proof.Machine.execAdcSetTimeout s
  | .pwmInit t => Sys2Proof.Machine.execPwmInit t s
  | .pwmSetDuty t c => Sys2Proof.Machine.execPwmSetDuty t c s
  | .pwmStart t c => Sys2Proof.Machine.execPwmStart t c s
  | .pwmStop t c => Sys2Proof.Machine.execPwmStop t c s
  | .motorInit => Sys2Proof.Machine.execMotorInit s
  | .motorSetSpeed id => Sys2Proof.Machine.execMotorSetSpeed id s
  | .motorStop id => Sys2Proof.Machine.execMotorStop id s
  | .motorSetDeadband => Sys2Proof.Machine.execMotorSetDeadband s
  | .servoInit => Sys2Proof.Machine.execServoInit s
  | .servoSetAngle id => Sys2Proof.Machine.execServoSetAngle id s

end Sys2Proof.Machine
end

