-- ==== Sys2Proof/Machine/Window.lean ====
section
/-! DEFINITION. The register window (20_memory.md): address decode (R81), the register map (R34), the views of the
state the host reads (R36, R42, R47 to R49), and the read and write functions (R87, R88). -/

namespace Sys2Proof.Machine

/-! ## Views -/

/-- `ADC_CTRL` (R42). -/
def Adc.ctrlView (a : Adc) : Word :=
  bitAt a.adon 0 ||| bitAt a.cont 1 ||| bitAt a.align 2 ||| bitAt a.swtrig 3 ||| bitAt a.rstcal 4 ||| bitAt a.cal 5
    ||| bitAt a.eoc 6 ||| bitAt a.ready 7 ||| fieldAt a.div 8 ||| fieldAt a.smp 12 ||| fieldAt a.chsel 16

/-- The bits of `TIM_CTRL[t]` that channel number `n` gives (R47): `CCE` at `3 + n`, `PWM1` at `7 + n`, `OCPE` at
`11 + n` and the live output level at `15 + n`. -/
def Timer.chanView (t : Timer) (c : ChanId) (n : Nat) : Word :=
  bitAt (t.ch c).cce (3 + n) ||| bitAt (t.ch c).pwm1 (7 + n) ||| bitAt (t.ch c).ocpe (11 + n)
    ||| bitAt (t.out c) (15 + n)

/-- `TIM_CTRL[t]` (R47). -/
def Timer.ctrlView (t : Timer) : Word :=
  bitAt t.cen 0 ||| bitAt t.arpe 1 ||| bitAt t.ready 2
    ||| t.chanView .c1 1 ||| t.chanView .c2 2 ||| t.chanView .c3 3 ||| t.chanView .c4 4

/-! ## The register map (R34) -/

/-- The registers of R34; `reserved` is every word slot the map does not name. -/
inductive Reg where
  | cmd
  | arg
  | status
  | result
  | errCmd
  | timeout
  | deadband
  | adcCtrl
  | adcDr
  | timCtrl (t : TimerId)
  | timPsc (t : TimerId)
  | timArr (t : TimerId)
  | timCnt (t : TimerId)
  | timCcr (t : TimerId) (c : ChanId)
  | reserved
deriving DecidableEq, Repr

/-- The register at word slot `r` of a timer's block (R34). -/
def timerReg (t : TimerId) (r : Nat) : Reg :=
  if r = 0 then .timCtrl t
  else if r = 1 then .timPsc t
  else if r = 2 then .timArr t
  else if r = 3 then .timCnt t
  else if r = 4 then .timCcr t .c1
  else if r = 5 then .timCcr t .c2
  else if r = 6 then .timCcr t .c3
  else .timCcr t .c4

/-- The register at a word slot of the window, `off[7:2]` (R34, R81). -/
def slotReg (slot : Nat) : Reg :=
  if slot = 0 then .cmd
  else if slot = 1 then .arg
  else if slot = 2 then .status
  else if slot = 3 then .result
  else if slot = 4 then .errCmd
  else if slot = 5 then .timeout
  else if slot = 6 then .deadband
  else if slot = 8 then .adcCtrl
  else if slot = 9 then .adcDr
  else if slot < 16 then .reserved
  else if slot < 24 then timerReg .t0 (slot - 16)
  else if slot < 32 then timerReg .t1 (slot - 24)
  else if slot < 40 then timerReg .t2 (slot - 32)
  else .reserved

/-- What a read of a register returns (R34, R87): no read has a side effect (R85). -/
def State.readReg (s : State) : Reg → Word
  | .cmd => 0
  | .arg => s.arg
  | .status => s.statusView
  | .result => s.result
  | .errCmd => s.errCmd
  | .timeout => s.timeout
  | .deadband => s.deadband.setWidth 32
  | .adcCtrl => s.adc.ctrlView
  | .adcDr => s.adc.dr.setWidth 32
  | .timCtrl t => (s.timer t).ctrlView
  | .timPsc t => (s.timer t).pscPre.setWidth 32
  | .timArr t => (s.timer t).arrPre
  | .timCnt t => (s.timer t).cnt
  | .timCcr t c => ((s.timer t).ch c).ccrPre
  | .reserved => 0

/-- What a write of `w` to a register does (R85, R88): every register but `CMD`, `ARG` and `STATUS` ignores it
(R86). -/
def State.writeReg (s : State) (w : Word) : Reg → State
  | .cmd => s.cmdWrite w
  | .arg => { s with arg := w }
  | .status => s.acknowledge w
  | .result => s
  | .errCmd => s
  | .timeout => s
  | .deadband => s
  | .adcCtrl => s
  | .adcDr => s
  | .timCtrl _ => s
  | .timPsc _ => s
  | .timArr _ => s
  | .timCnt _ => s
  | .timCcr _ _ => s
  | .reserved => s

/-! ## The read and write functions -/

/-- The address decode of R81: the offset of a byte address inside the window, if the access is the block's. -/
def windowOffset (a : Nat) : Option Nat :=
  if Config.aspaBase ≤ a ∧ a ≤ Config.aspaBase + 0xFF then some (a - Config.aspaBase) else none

/-- An access at offset `off` of width `n` is a word-aligned 32-bit access (R82). -/
def wordAccess (off n : Nat) : Bool := n == 4 && off % 4 == 0

/-- What a host access answers. -/
inductive Access (α : Type) where
  /-- The address is not in the window: not this block's access (R81, R87). -/
  | notMine
  /-- Not a word-aligned 32-bit access (R82). -/
  | busError (addr n : Nat)
  | done (v : α)
deriving DecidableEq, Repr

/-- `MemRead(a, n)` (R87). -/
def State.memRead (s : State) (a n : Nat) : Access Word :=
  match windowOffset a with
  | none => .notMine
  | some off => if wordAccess off n then .done (s.readReg (slotReg (off / 4))) else .busError a n

/-- `MemWrite(a, n, w)` (R88). -/
def State.memWrite (s : State) (a n : Nat) (w : Word) : Access State :=
  match windowOffset a with
  | none => .notMine
  | some off => if wordAccess off n then .done (s.writeReg w (slotReg (off / 4))) else .busError a n

/-- The byte of the window at offset `off`, as the byte order of R83 lays it out. The host cannot read it alone
(R82). -/
def State.windowByte (s : State) (off : Nat) : Byte := byteOf (s.readReg (slotReg (off / 4))) (off % 4)

end Sys2Proof.Machine
end

