-- ==== Sys2Proof/Machine/Moves.lean ====
section
/-! DEFINITION. The agents' steps (R32): the host's access, the sequencer's micro-step, the converter's step, a
timer's tick and the system reset; and the choice of the next move. -/

namespace Sys2Proof.Machine

/-- The host's step (R87, R88): a read hands its data to the host, a write acts on the block, an access outside the
window is not the block's (log entry 9), and any other access is a bus error (R82). -/
def State.hostStep (s : State) : HostAccess → Result
  | .read a n =>
    match s.memRead a n with
    | .notMine => .next s
    | .busError a n => .fault (.busError a n)
    | .done v => .next { s with hostRdata := v }
  | .write a n w =>
    match s.memWrite a n w with
    | .notMine => .next s
    | .busError a n => .fault (.busError a n)
    | .done s' => .next s'

/-- The rejection of an illegal word by the legality check of micro-step S1 (R255). -/
def State.rejectIllegal (s : State) : Result :=
  match s.seq.step with
  | some .s1 => .next (s.raise .illegalCommand)
  | _ => .fault .noMicroStep

/-- The sequencer's step: the next micro-step of the running command (R16, R255). An idle sequencer has no step
(log entry 3). -/
def State.sequencerStep (s : State) : Result :=
  match s.seq.mode with
  | .idle => .next s
  | .run =>
    match decode s.seq.cmd with
    | .ok i => exec i s
    | .error _ => s.rejectIllegal

/-- The converter's step (R44). -/
def State.converterMove (s : State) (e : ConverterEvent) : State := { s with adc := s.adc.converterStep e }

/-- `TICK(t)`, enabled when `T[t].CEN = 1` (R170). -/
def State.tickMove (s : State) (t : TimerId) : State :=
  if (s.timer t).cen then s.setTimer t (s.timer t).tick else s

/-- The system reset (R280): every piece of the block's state at its reset value, whatever it was. The model's own
fields stay, for they are the world's and not the block's (log entry 5). -/
def State.systemReset (s : State) : State :=
  { State.reset with
    params := s.params
    agenda := s.agenda
    worldCount := s.worldCount
    hostRdata := s.hostRdata }

/-- One move as a step of the block (R32, R280). That the parameter set is legal is checked where steps and runs are
taken, by `State.machineStep` and `runTurns` (R10). -/
def State.applyMove (s : State) : Move → Result
  | .host a => s.hostStep a
  | .sequencer => s.sequencerStep
  | .converter e => .next (s.converterMove e)
  | .tick t => .next (s.tickMove t)
  | .reset => .next s.systemReset

/-- The next move and the state in which it is taken: the head of the agenda, and past its end a free choice of the
world (log entry 2). -/
def State.nextMove (s : State) : Move × State :=
  match s.agenda with
  | m :: rest => (m, { s with agenda := rest })
  | [] => (Config.worldMove s.worldCount, { s with worldCount := s.worldCount + 1 })

/-- One step of the block: a parameter set that breaks R10 has no meaning (R260); otherwise the next move. -/
def State.machineStep (s : State) : Result :=
  if paramsValid s.params then s.nextMove.2.applyMove s.nextMove.1 else .refused .parameterSet

/-- The state right after the command word of `nbits` bits `w` was accepted, with the sequencer moving next (R250; log
entry 11). -/
def State.withCommand (s : State) (nbits w : Nat) : State :=
  { s.accept (BitVec.ofNat 32 (w % 2 ^ nbits)) with agenda := .sequencer :: s.agenda }

end Sys2Proof.Machine
end

