-- ==== Sys2Proof/Machine/Step.lean ====
section
/-! DEFINITION. The step function of the block, and placing a command where the next step runs it. -/

namespace Sys2Proof.Machine

/-- One atomic step of one agent (R32). -/
def step (s : State) : Host.Outcome State Fault Refusal := s.machineStep

/-- The state whose next step runs the command word `w` (log entry 11). -/
def State.withFetchWord (s : State) (nbits w : Nat) : State := s.withCommand nbits w

end Sys2Proof.Machine
end

