-- ==== Sys2Proof/Machine/HostProgram.lean ====
section
/-! DEFINITION. The host's side: the assembly notation of R107, the pseudo-instructions of R108, and a host program
running against the block. The program and the names it binds are the host's and no state of the block (R33). -/

namespace Sys2Proof.Machine

/-! ## Statements (R107) -/

/-- A `V` of R107, the value a statement writes or compares with: an integer literal, or a name bound by an earlier
`rd`. -/
inductive Value where
  | lit (w : Word)
  | name (n : String)
deriving DecidableEq, Repr

/-- A statement of the host-side notation (R107); `off` is a byte offset from `ASPA_BASE`. -/
inductive Stmt where
  | wr (off : Nat) (v : Value)
  | rd (off : Nat) (n : String)
  | poll (off : Nat) (mask : Word) (v : Value)
  | label (l : String)
  | b (l : String)
  | beq (n : String) (mask : Word) (v : Value) (l : String)
  | bne (n : String) (mask : Word) (v : Value) (l : String)
  | halt
deriving DecidableEq, Repr

/-- A decimal operand as it is written (R107): its sign, its digits as one number, and how many of them stand after the
point. The sign is kept apart, so that `-0.0` is not `0.0` (log entry 13). -/
structure Decimal where
  negative : Bool
  digits   : Nat
  places   : Nat
deriving DecidableEq, Repr

/-- The number a decimal operand writes, without its sign. -/
def Decimal.magnitude (d : Decimal) : Rat := (d.digits : Rat) / 10 ^ d.places

/-- The binary32 pattern the assembler puts for a decimal operand (R107): `rne32` of the number, with the written sign in
bit 31 (log entry 13). -/
def Decimal.pattern (d : Decimal) : Word :=
  if d.negative then rne32 d.magnitude ||| 0x80000000#32 else rne32 d.magnitude

/-- The command statements of R107, then the pseudo-instructions of R108. -/
inductive AsmCmd where
  | adcInit
  | adcSample (ch : Sel)
  | adcAvg (ch : Sel) (n : Byte)
  | adcVolt (r : Value)
  | adcTimeout (n : Value)
  | pwmInit (t : Sel) (f : Value)
  | pwmDuty (t c : Sel) (p : Decimal)
  | pwmStart (t c : Sel)
  | pwmStop (t c : Sel)
  | motorInit
  | motorSpeed (m : Sel) (s : Int)
  | motorStop (m : Sel)
  | motorDeadband (d : Value)
  | servoInit
  | servoAngle (s : Sel) (a : Decimal)
  | adcRead (ch : Sel)
  | motorCoast (m : Sel)
  | servoCenter (s : Sel)
  | waitIdle
  | clrErr
deriving DecidableEq, Repr

/-- `poll 0x08, 0x00000001, 0`: wait until `BUSY` is 0. -/
def pollIdle : Stmt := .poll 0x08 1 (.lit 0)

/-- The expansion of a command statement: the `ARG` write where the command has an operand, the `CMD` write, and the
poll (R107). -/
def issue (i : Instr) (arg : Option Value) : List Stmt :=
  (arg.map fun v => Stmt.wr 0x04 v).toList ++ [.wr 0x00 (.lit (encode i)), pollIdle]

/-- The expansion of a statement of R107 or R108; a decimal operand is converted by `Decimal.pattern` and a signed one
to its 32-bit two's complement. What the assembler does with a speed that does not fit 32 bits is left open; the model wraps it
modulo 2^32 (log entry 26). -/
def AsmCmd.expand : AsmCmd → List Stmt
  | .adcInit => issue .adcInit none
  | .adcSample ch => issue (.adcSample ch) none
  | .adcAvg ch n => issue (.adcAvg ch n) none
  | .adcVolt r => issue .adcToVolt (some r)
  | .adcTimeout n => issue .adcSetTimeout (some n)
  | .pwmInit t f => issue (.pwmInit t) (some f)
  | .pwmDuty t c p => issue (.pwmSetDuty t c) (some (.lit p.pattern))
  | .pwmStart t c => issue (.pwmStart t c) none
  | .pwmStop t c => issue (.pwmStop t c) none
  | .motorInit => issue .motorInit none
  | .motorSpeed m s => issue (.motorSetSpeed m) (some (.lit (BitVec.ofInt 32 s)))
  | .motorStop m => issue (.motorStop m) none
  | .motorDeadband d => issue .motorSetDeadband (some d)
  | .servoInit => issue .servoInit none
  | .servoAngle s a => issue (.servoSetAngle s) (some (.lit a.pattern))
  | .adcRead ch => issue (.adcSample ch) none
  | .motorCoast m => issue (.motorStop m) none
  | .servoCenter s => issue (.servoSetAngle s) (some (.lit (Decimal.pattern ⟨false, 900, 1⟩)))
  | .waitIdle => [pollIdle]
  | .clrErr => [.wr 0x08 (.lit 0x00000300)]

/-! ## Control flow of a host program -/

/-- Where the host's program stands and what its names are bound to, the latest binding first: a name that is bound
twice has its latest value (log entry 25). -/
structure HostCtx where
  pos : Nat
  env : List (String × Word)
deriving DecidableEq, Repr

/-- The host before its program's first statement. -/
def HostCtx.start : HostCtx := ⟨0, []⟩

/-- The value of an operand (R107). -/
def HostCtx.value (h : HostCtx) : Value → Option Word
  | .lit w => some w
  | .name n => h.env.lookup n

/-- Go on to the next statement. -/
def HostCtx.next (h : HostCtx) : HostCtx := { h with pos := h.pos + 1 }

/-- An access the host's program is about to make, with its operand's value. -/
inductive Pending where
  | wr (off : Nat) (w : Word)
  | rd (off : Nat) (n : String)
  | poll (off : Nat) (mask v : Word)
deriving DecidableEq, Repr

/-- What the host does at its next statement, before it touches the block. -/
inductive Control where
  | go (h : HostCtx)
  | access (a : Pending)
  /-- `halt`, or the end of the program: the host makes no access any more. -/
  | ended
  /-- A name with no binding or a label the program does not hold (log entry 15). -/
  | unbound
deriving DecidableEq, Repr

/-- Continue at a label. A label that marks several positions stands for the first of them (log entry 25). -/
def jumpTo (p : List Stmt) (l : String) (h : HostCtx) : Control :=
  match p.findIdx? (· == .label l) with
  | some i => .go { h with pos := i }
  | none => .unbound

/-- A branch on how the masked value of a name compares with `v`: it is taken when the comparison's answer is `eq`. -/
def branchOn (p : List Stmt) (n : String) (mask : Word) (v : Value) (eq : Bool) (l : String) (h : HostCtx) : Control :=
  match h.env.lookup n, h.value v with
  | some w, some x => if (w &&& mask == x) == eq then jumpTo p l h else .go h.next
  | none, _ => .unbound
  | some _, none => .unbound

/-- The statement at the host's position (R107): only `wr`, `rd` and `poll` touch the block. -/
def HostCtx.control (p : List Stmt) (h : HostCtx) : Control :=
  match p[h.pos]? with
  | none => .ended
  | some .halt => .ended
  | some (.label _) => .go h.next
  | some (.b l) => jumpTo p l h
  | some (.beq n mask v l) => branchOn p n mask v true l h
  | some (.bne n mask v l) => branchOn p n mask v false l h
  | some (.wr off v) =>
    match h.value v with
    | none => .unbound
    | some w => .access (.wr off w)
  | some (.rd off n) => .access (.rd off n)
  | some (.poll off mask v) =>
    match h.value v with
    | none => .unbound
    | some x => .access (.poll off mask x)

/-! ## A host program against the block -/

/-- What one statement of the host's program answers. -/
inductive HostTurn where
  | go (h : HostCtx) (s : State)
  | ended (h : HostCtx) (s : State)
  | unbound
  | fault (f : Fault)
deriving DecidableEq, Repr

/-- An access of the host's program (R107). A `poll` that does not find its value stays where it is; a write outside
the window is not the block's (log entry 9), and a read there has no value to bind (log entry 15). -/
def hostAccess (h : HostCtx) (s : State) : Pending → HostTurn
  | .wr off w =>
    match s.memWrite (Config.aspaBase + off) 4 w with
    | .notMine => .go h.next s
    | .busError a n => .fault (.busError a n)
    | .done s' => .go h.next s'
  | .rd off n =>
    match s.memRead (Config.aspaBase + off) 4 with
    | .notMine => .unbound
    | .busError a k => .fault (.busError a k)
    | .done w => .go { h.next with env := (n, w) :: h.env } { s with hostRdata := w }
  | .poll off mask v =>
    match s.memRead (Config.aspaBase + off) 4 with
    | .notMine => .unbound
    | .busError a k => .fault (.busError a k)
    | .done w => .go (if w &&& mask = v then h.next else h) { s with hostRdata := w }

/-- One statement of the host's program (R107). -/
def hostTurn (p : List Stmt) (h : HostCtx) (s : State) : HostTurn :=
  match h.control p with
  | .go h' => .go h' s
  | .access a => hostAccess h s a
  | .ended => .ended h s
  | .unbound => .unbound

/-! ## The start and the end of a run (R299) -/

/-- A clean-entry state (R299): the sequencer idle and no conversion in flight. That no fault is recorded needs no
field: a fault ends the model's run (log entry 8). -/
def State.cleanEntry (s : State) : Bool := s.seq.mode == .idle && !s.adc.pend

/-- A run has ended (R299): the host has made its last access, `SEQ.MODE = IDLE` and `ADC.PEND = 0`. -/
def State.runEnded (s : State) (lastAccessMade : Bool) : Bool := lastAccessMade && s.cleanEntry

/-- The move is an access of the host. -/
def isHostMove : Move → Bool
  | .host _ => true
  | .sequencer => false
  | .converter _ => false
  | .tick _ => false
  | .reset => false

/-- The end of a run in which the host's remaining accesses are those of the agenda (R299). -/
def State.agendaRunEnded (s : State) : Bool := s.runEnded (s.agenda.all fun m => !isHostMove m)

/-- The host's position after its next statement, where that statement touches nothing; else where it is. -/
def HostCtx.advance (p : List Stmt) (h : HostCtx) : HostCtx :=
  match h.control p with
  | .go h' => h'
  | .access _ => h
  | .ended => h
  | .unbound => h

/-- The host's next statement is no access and has a meaning. -/
def HostCtx.quiet (p : List Stmt) (h : HostCtx) : Bool :=
  match h.control p with
  | .go _ => true
  | .access _ => false
  | .ended => true
  | .unbound => false

/-- The host's next `k` statements are no accesses. -/
def HostCtx.quietFor (p : List Stmt) : Nat → HostCtx → Bool
  | 0, _ => true
  | k + 1, h => h.quiet p && quietFor p k (h.advance p)

/-- The program has made its last access (R299): its end or a `halt` is reached by control statements alone, or it
branches for good without an access. Between accesses no name changes, so a position that comes back comes back for good
and `p.length + 2` statements decide it (`HostCtx.quietFor_all`). -/
def HostCtx.lastAccessMade (p : List Stmt) (h : HostCtx) : Bool := h.quietFor p (p.length + 2)

/-- The run of a host program has ended (R299). -/
def runOver (p : List Stmt) (h : HostCtx) (s : State) : Bool := s.runEnded (h.lastAccessMade p)

/-- A move that is no access of the host: another agent's step (R32), or the system reset (R280). In a run of a host
program the host's accesses are its program's and no others (R299). -/
inductive BlockMove where
  | sequencer
  | converter (e : ConverterEvent)
  | tick (t : TimerId)
  | reset
deriving DecidableEq, Repr

/-- The move as one of the block's moves. -/
def BlockMove.toMove : BlockMove → Move
  | .sequencer => .sequencer
  | .converter e => .converter e
  | .tick t => .tick t
  | .reset => .reset

/-- Whose turn it is: the host's next statement, or another agent's move (R32). -/
inductive Turn where
  | host
  | block (m : BlockMove)
deriving DecidableEq, Repr

/-- Where a run stands after its turns: still going, over (R299), without a meaning (log entry 15), with the fault
recorded that keeps it from ever ending, refused because its parameter set breaks R10 (R260), or no run at all because
its first state is no start state (R299). -/
inductive RunResult where
  | going (h : HostCtx) (s : State)
  | over (h : HostCtx) (s : State)
  | unbound
  | fault (f : Fault)
  | refused (r : Refusal)
  | notAStart
deriving DecidableEq, Repr

/-- A host program and the block run together under a list of turns (R90, R299). A parameter set that breaks R10 has no
meaning, so its run is refused, as `step` refuses it (R10, R260). The timers do not stop at the end of a run, so the other
agents' turns still happen once the program has ended. -/
def runTurns (p : List Stmt) (ts : List Turn) (h : HostCtx) (s : State) : RunResult :=
  if paramsValid s.params then
    match ts with
    | [] => if runOver p h s then .over h s else .going h s
    | .host :: ts =>
      match hostTurn p h s with
      | .go h' s' => runTurns p ts h' s'
      | .ended h' s' => runTurns p ts h' s'
      | .unbound => .unbound
      | .fault f => .fault f
    | .block m :: ts =>
      match s.applyMove m.toMove with
      | .next s' => runTurns p ts h s'
      | .fault f => .fault f
      | .refused r => .refused r
  else .refused .parameterSet

/-- The run of a host program from a start state (R299): the reset state of R280, which is a clean-entry state too, or a
named clean-entry state. Under a legal parameter set any other state starts no run. -/
def hostRun (p : List Stmt) (ts : List Turn) (s : State) : RunResult :=
  if paramsValid s.params && !s.cleanEntry then .notAStart else runTurns p ts HostCtx.start s

end Sys2Proof.Machine
end

