-- ==== Sys2Proof/WellFormed.lean ====
section
/-! DEFINITION. The operand domains of R105: a command is well formed when each of its selectors lies in its domain.
A command that is not well formed still decodes and runs: it ends with INVALID_ARGUMENT (R105, R254). -/

namespace Sys2Proof

/-- An ADC channel is 0 to 9 (R105). -/
def Sel.isAdcChannel (ch : Sel) : Bool := ch ≤ 9

/-- A timer is 0 to `NUM_TIMERS - 1`, that is 0 to 2 (R105). -/
def Sel.isTimer (t : Sel) : Bool := t < 3

/-- A PWM channel is 1 to 4 (R105). -/
def Sel.isPwmChannel (c : Sel) : Bool := 1 ≤ c && c ≤ 4

/-- A motor or servo id is 1 or 2 (R105). -/
def Sel.isActuator (id : Sel) : Bool := id == 1 || id == 2

/-- A sample count is 1 to 255 (R105). -/
def Byte.isTimes (n : Byte) : Bool := n != 0

/-- Every selector of the command lies in its domain (R105). -/
def Instr.wellFormed : Instr → Bool
  | .adcInit => true
  | .adcSample ch => Sel.isAdcChannel ch
  | .adcAvg ch times => Sel.isAdcChannel ch && Byte.isTimes times
  | .adcToVolt => true
  | .adcSetTimeout => true
  | .pwmInit t => Sel.isTimer t
  | .pwmSetDuty t c => Sel.isTimer t && Sel.isPwmChannel c
  | .pwmStart t c => Sel.isTimer t && Sel.isPwmChannel c
  | .pwmStop t c => Sel.isTimer t && Sel.isPwmChannel c
  | .motorInit => true
  | .motorSetSpeed id => Sel.isActuator id
  | .motorStop id => Sel.isActuator id
  | .motorSetDeadband => true
  | .servoInit => true
  | .servoSetAngle id => Sel.isActuator id

end Sys2Proof
end

