-- ==== Sys2Proof/Safety.lean ====
section
/-! DEFINITION. What the claims speak of: the numbers of the parts, the commands that wait, runs of moves,
when an agent's step is enabled and a run is fair (R291, R297), the invariant of the block, and the motor interlock
(R216). -/

namespace Sys2Proof.Machine

/-! ## Numbers of the parts -/

/-- The number of a timer. -/
def timerNum : TimerId → Nat
  | .t0 => 0
  | .t1 => 1
  | .t2 => 2

/-- The number of a channel. -/
def chanNum : ChanId → Nat
  | .c1 => 1
  | .c2 => 2
  | .c3 => 3
  | .c4 => 4

/-! ## Commands that wait (R291) -/

/-- The commands that wait for the converter (R291). -/
def waits : Instr → Bool
  | .adcInit => true
  | .adcSample _ => true
  | .adcAvg _ _ => true
  | .adcToVolt => false
  | .adcSetTimeout => false
  | .pwmInit _ => false
  | .pwmSetDuty _ _ => false
  | .pwmStart _ _ => false
  | .pwmStop _ _ => false
  | .motorInit => false
  | .motorSetSpeed _ => false
  | .motorStop _ => false
  | .motorSetDeadband => false
  | .servoInit => false
  | .servoSetAngle _ => false

/-! ## Runs -/

/-- `k` moves of the sequencer in a row, of a block whose parameter set is legal. -/
def sequencerRun : Nat → State → Result
  | 0, s => .next s
  | k + 1, s =>
    match s.sequencerStep with
    | .next s' => sequencerRun k s'
    | .fault f => .fault f
    | .refused r => .refused r

/-- The moves of a list, in order, stopping at the first fault or refusal: a block whose parameter set is legal. -/
def runMoves : List Move → State → Result
  | [], s => .next s
  | m :: ms, s =>
    match s.applyMove m with
    | .next s' => runMoves ms s'
    | .fault f => .fault f
    | .refused r => .refused r

/-- `k` ticks of a timer in a row (R170). -/
def tickRun : Nat → Timer → Timer
  | 0, t => t
  | k + 1, t => tickRun k t.tick

/-! ## Fairness (R291, R297) -/

/-- The agent whose steps are weakly fair. -/
inductive FairAgent where
  | sequencer
  | timer (t : TimerId)
  | k1
  | k2
  | k3
deriving DecidableEq, Repr

/-- The agent's step is enabled (R44, R170, R291). -/
def FairAgent.enabled (s : State) : FairAgent → Bool
  | .sequencer => s.seq.mode == .run
  | .timer t => (s.timer t).cen
  | .k1 => s.adc.adon && s.adc.rstcal
  | .k2 => s.adc.adon && s.adc.cal
  | .k3 => s.adc.adon && s.adc.pend

/-- The move is a step of the agent. -/
def FairAgent.moves : FairAgent → Move → Prop
  | .sequencer, m => m = .sequencer
  | .timer t, m => m = .tick t
  | .k1, m => m = .converter .k1
  | .k2, m => m = .converter .k2
  | .k3, m => ∃ v, m = .converter (.k3 v)

/-- Weak fairness: an agent whose step stays enabled eventually takes it. -/
def WeaklyFair (a : FairAgent) (σ : Nat → Move) (tr : Nat → State) : Prop :=
  ∀ n, (∀ m, n ≤ m → a.enabled (tr m) = true) → ∃ m, n ≤ m ∧ a.moves (σ m)

/-- An infinite run: the states `tr` under the moves `σ`. -/
def Follows (σ : Nat → Move) (tr : Nat → State) : Prop := ∀ n, (tr n).applyMove (σ n) = .next (tr (n + 1))

/-- A fair infinite run (R291): the sequencer and the running timers are weakly fair, and the converter when
`CONVERTER_LIVE` is true (R297). -/
structure FairRun (converterLive : Bool) (σ : Nat → Move) (tr : Nat → State) : Prop where
  follows   : Follows σ tr
  sequencer : WeaklyFair .sequencer σ tr
  timers    : ∀ t, WeaklyFair (.timer t) σ tr
  converter : converterLive = true → WeaklyFair .k1 σ tr ∧ WeaklyFair .k2 σ tr ∧ WeaklyFair .k3 σ tr

/-! ## The invariant -/

/-- The micro-step labels of each command's rule (40_adc.md to 43_servo.md). -/
def hasStep : Instr → MicroStep → Bool
  | .adcInit, _ => true
  | .adcSample _, l => l ∈ [.s1, .s2, .s3, .s4]
  | .adcAvg _ _, l => l ∈ [.s1, .s2, .s3, .s4, .s5]
  | .adcToVolt, l => l = .s1
  | .adcSetTimeout, l => l = .s1
  | .pwmInit _, l => l ∈ [.s1, .s2]
  | .pwmSetDuty _ _, l => l = .s1
  | .pwmStart _ _, l => l = .s1
  | .pwmStop _ _, l => l = .s1
  | .motorInit, l => l ∈ [.s1, .s2, .s3, .s4, .s5]
  | .motorSetSpeed _, l => l = .s1
  | .motorStop _, l => l = .s1
  | .motorSetDeadband, l => l = .s1
  | .servoInit, l => l ∈ [.s1, .s2, .s3, .s4, .s5]
  | .servoSetAngle _, l => l = .s1

/-- A timer's state is legal for `TIMER_BITS = bits` and the prescaler value `psc` (R46, R170, R172, R173, R180): it
stands at its reset value until `PWM_INIT`, and from then on runs buffered, with every field in its range. -/
structure TimerInv (bits psc : Nat) (t : Timer) : Prop where
  off    : t.ready = false → t = Timer.reset
  on     : t.ready = true → t.cen = true ∧ t.arpe = true ∧ ∀ c, (t.ch c).pwm1 = true ∧ (t.ch c).ocpe = true
  psc    : t.ready = true → t.pscPre.toNat = psc ∧ t.pscAct.toNat = psc
  arrPre : t.arrPre.toNat + 2 ≤ 2 ^ bits
  arrAct : t.arrAct.toNat + 2 ≤ 2 ^ bits
  cnt    : t.cnt.toNat ≤ t.arrAct.toNat
  pscCnt : t.pscCnt.toNat ≤ t.pscAct.toNat
  ccr    : ∀ c, (t.ch c).ccrPre.toNat < 2 ^ bits ∧ (t.ch c).ccrAct.toNat < 2 ^ bits

/-- The ADC's state is legal (R41, R44, R45, R132): the data register holds a 12-bit value, an enabled converter is
configured, and a ready one has finished both calibrations. -/
structure AdcInv (a : Adc) : Prop where
  dr    : a.dr.toNat ≤ Config.adcMax
  chsel : a.chsel.toNat ≤ 9
  off   : a.adon = false → a.rstcal = false ∧ a.cal = false ∧ a.eoc = false ∧ a.pend = false ∧ a.ready = false
  on    : a.adon = true → a.cont = false ∧ a.align = false ∧ a.swtrig = true ∧ a.div = 6#4 ∧ a.smp = 7#3
  ready : a.ready = true → a.adon = true ∧ a.rstcal = false ∧ a.cal = false

/-- A poll counter is below a nonzero budget (R137). -/
def pollsBelow (s : State) : Prop := s.timeout = 0#32 ∨ s.seq.polls.toNat < s.timeout.toNat

/-- A conversion is in flight or has just finished, and not both (R136, R147, R148). -/
def converting (a : Adc) : Prop := a.pend = !a.eoc

/-- No conversion is in flight and none is waiting to be read (R147). -/
def notConverting (a : Adc) : Prop := a.pend = false ∧ a.eoc = false

/-- What holds when the running command `i` stands before micro-step `l` (R130, R132, R137 to R139, R180, R211,
R231). -/
def stepInv (s : State) : Instr → MicroStep → Prop
  | .adcInit, l =>
    notConverting s.adc
    ∧ (l ≠ .s1 → s.adc.ready = false ∧ s.adc.div = 6#4)
    ∧ (l ∈ [.s4, .s5, .s6, .s7, .s8, .s9, .s10] →
        s.adc.cont = false ∧ s.adc.align = false ∧ s.adc.swtrig = true ∧ s.adc.smp = 7#3)
    ∧ (l ∈ [.s5, .s6, .s7, .s8, .s9, .s10] → s.adc.adon = true)
    ∧ (l ∈ [.s8, .s9, .s10] → s.adc.rstcal = false)
    ∧ (l = .s10 → s.adc.cal = false)
    ∧ (l ∈ [.s7, .s9] → pollsBelow s)
  | .adcSample ch, l =>
    (l ≠ .s1 → ch.toNat ≤ 9 ∧ s.adc.ready = true)
    ∧ (l = .s3 → converting s.adc ∧ s.adc.chsel = ch ∧ pollsBelow s)
    ∧ (l ≠ .s3 → notConverting s.adc)
  | .adcAvg ch times, l =>
    (l ≠ .s1 → ch.toNat ≤ 9 ∧ times ≠ 0#8 ∧ s.adc.ready = true)
    ∧ (l ∈ [.s3, .s4] → s.seq.k.toNat < times.toNat ∧ s.seq.acc.toNat ≤ Config.adcMax * s.seq.k.toNat)
    ∧ (l = .s4 → converting s.adc ∧ s.adc.chsel = ch ∧ pollsBelow s)
    ∧ (l ≠ .s4 → notConverting s.adc)
    ∧ (l = .s5 → s.seq.k = times ∧ s.seq.acc.toNat ≤ Config.adcMax * times.toNat)
  | .pwmInit t, l =>
    notConverting s.adc
    ∧ (l = .s2 → ∃ tid p, timerOfSel t = some tid ∧ periodOf s.params.timerBits (u32 s.seq.arg) = .ok p)
  | .motorInit, l => notConverting s.adc ∧ (l ∈ [.s4, .s5] → (s.timer Config.motorTimer).ready = true)
  | .servoInit, l => notConverting s.adc ∧ (l ∈ [.s4, .s5] → (s.timer Config.servoTimer).ready = true)
  | .adcToVolt, _ => notConverting s.adc
  | .adcSetTimeout, _ => notConverting s.adc
  | .pwmSetDuty _ _, _ => notConverting s.adc
  | .pwmStart _ _, _ => notConverting s.adc
  | .pwmStop _ _, _ => notConverting s.adc
  | .motorSetSpeed _, _ => notConverting s.adc
  | .motorStop _, _ => notConverting s.adc
  | .motorSetDeadband, _ => notConverting s.adc
  | .servoSetAngle _, _ => notConverting s.adc

/-- The sequencer's state is legal (R31, R147, R250): idle with no micro-step and no conversion in flight, or running
with a micro-step of the command it holds and `DONE = 0`. -/
def seqInv (s : State) : Prop :=
  match s.seq.mode with
  | .idle => s.seq.step = none ∧ notConverting s.adc
  | .run =>
    s.status.done = false ∧
    match decode s.seq.cmd with
    | .error _ => s.seq.step = some .s1 ∧ notConverting s.adc
    | .ok i => ∃ l, s.seq.step = some l ∧ hasStep i l = true ∧ stepInv s i l

/-- The invariant of the block. -/
structure BlockInv (s : State) : Prop where
  params   : paramsValid s.params = true
  timers   : ∀ t, TimerInv s.params.timerBits (pscVal s.params t) (s.timer t)
  adc      : AdcInv s.adc
  seq      : seqInv s
  lastErr  : s.status.lastErr.toNat ≤ 5
  deadband : s.deadband.toNat ≤ 100

/-! ## The motor interlock (R216) -/

/-- Of two compare values at most one is nonzero. -/
def atMostOne (a b : BitVec 32) : Prop := a = 0#32 ∨ b = 0#32

/-- At most one channel of a motor's pair carries a nonzero compare value, in the preload copies and in the active
copies (R216). -/
def pairExclusive (t : Timer) (a : ActuatorId) : Prop :=
  atMostOne (t.ch (fwdChan a)).ccrPre (t.ch (revChan a)).ccrPre
    ∧ atMostOne (t.ch (fwdChan a)).ccrAct (t.ch (revChan a)).ccrAct

/-- The interlock of both motors (R216). -/
def Interlock (s : State) : Prop := ∀ a, pairExclusive (s.timer Config.motorTimer) a

/-- The command that runs writes a compare value of the motor timer without being a motor command: a `PWM_SET_DUTY` on
`MOTOR_TIMER` (R290). -/
def drivesMotorTimer (s : State) : Prop :=
  s.seq.mode = .run ∧ ∃ t c, decode s.seq.cmd = .ok (.pwmSetDuty t c) ∧ timerOfSel t = some Config.motorTimer

end Sys2Proof.Machine
end

