-- ==== Sys2Proof/Certificates/Slice0/Obligations.lean ====
section
/-! DEFINITION. The statements for the provers, drawn from the numbered rules of spec/. Where a statement gives the next
state whole, as an update of the state before, it also says what the command leaves unchanged: everything not named. -/

namespace Sys2Proof.Claims

open Sys2Proof.Machine

/-! ## How a command ends, in raw fields -/

/-- The state in which a command has completed (R252). -/
def completed (s : State) : State :=
  { s with
    status := { s.status with lastErr := 0#4, done := true }
    seq := { s.seq with mode := .idle, step := none } }

/-- The state in which a command has ended with the error of the given code (R253, R254). -/
def failed (s : State) (code : BitVec 4) : State :=
  { s with
    status := { s.status with lastErr := code, errSticky := true, done := true }
    errCmd := s.seq.cmd
    seq := { s.seq with mode := .idle, step := none } }

/-- The state in which the sequencer has gone on to micro-step `l` and nothing else has changed. -/
def wentTo (s : State) (l : MicroStep) : State := { s with seq := { s.seq with step := some l } }

/-- What a poll that does not find its condition does (R137). -/
def pollFailed (s : State) : State :=
  if s.timeout = 0#32 then s
  else if s.seq.polls.toNat + 1 = s.timeout.toNat then
    failed { s with
      seq := { s.seq with polls := s.seq.polls + 1#32 }
      adc := { s.adc with pend := false } } 3#4
  else { s with seq := { s.seq with polls := s.seq.polls + 1#32 } }

/-! ## Timer updates, in raw fields -/

/-- A channel whose compare value has been written (R183). -/
def ccrWritten (x : Channel) (v : BitVec 32) : Channel :=
  { x with ccrPre := v, ccrAct := if x.ocpe then x.ccrAct else v }

/-- The state in which `WRITE_CCR(t, c, v)` has been performed (R183). -/
def withCcr (s : State) (t : TimerId) (c : ChanId) (v : Nat) : State :=
  s.setTimer t ((s.timer t).setCh c (ccrWritten ((s.timer t).ch c) (BitVec.ofNat 32 v)))

/-- The state in which `T[t].CCE[c]` is `b` (R185, R186). -/
def withCce (s : State) (t : TimerId) (c : ChanId) (b : Bool) : State :=
  s.setTimer t ((s.timer t).setCh c { (s.timer t).ch c with cce := b })

/-- A channel after micro-step S2 of `PWM_INIT`; `running` says that the timer ran before it (R174, R180). -/
def channelInitialised (running : Bool) (x : Channel) : Channel :=
  { x with pwm1 := true, ocpe := true, ccrAct := if running then x.ccrAct else x.ccrPre }

/-- A timer after micro-step S2 of `PWM_INIT` with the prescaler value `psc` and the period `arr` (R174, R180): on a
stopped timer the preloads are loaded at once and the counters start at 0. -/
def timerInitialised (t : Timer) (psc : BitVec 16) (arr : BitVec 32) : Timer where
  cen := true
  arpe := true
  ready := true
  pscPre := psc
  pscAct := if t.cen then t.pscAct else psc
  arrPre := arr
  arrAct := if t.cen then t.arrAct else arr
  cnt := if t.cen then t.cnt else 0#32
  pscCnt := if t.cen then t.pscCnt else 0#16
  ch1 := channelInitialised t.cen t.ch1
  ch2 := channelInitialised t.cen t.ch2
  ch3 := channelInitialised t.cen t.ch3
  ch4 := channelInitialised t.cen t.ch4

/-- `PSCVAL(t)` of a parameter set (R173). -/
def prescaler (p : Params) (t : TimerId) : BitVec 16 := BitVec.ofNat 16 (clkHz p t / 1000000 - 1)

/-- A channel after the update event (R171). -/
def channelUpdated (x : Channel) : Channel := { x with ccrAct := if x.ocpe then x.ccrPre else x.ccrAct }

/-- A timer after the wrap of its counter with the update event (R170, R171). -/
def timerWrapped (t : Timer) : Timer :=
  { t with
    cnt := 0#32
    pscCnt := 0#16
    pscAct := t.pscPre
    arrAct := if t.arpe then t.arrPre else t.arrAct
    ch1 := channelUpdated t.ch1
    ch2 := channelUpdated t.ch2
    ch3 := channelUpdated t.ch3
    ch4 := channelUpdated t.ch4 }

/-! ## Reset -/

/-- A timer at its reset value (R280). -/
def timerAtReset : Timer where
  cen := false
  arpe := false
  ready := false
  pscPre := 0#16
  pscAct := 0#16
  arrPre := 0#32
  arrAct := 0#32
  cnt := 0#32
  pscCnt := 0#16
  ch1 := ⟨0#32, 0#32, false, false, false⟩
  ch2 := ⟨0#32, 0#32, false, false, false⟩
  ch3 := ⟨0#32, 0#32, false, false, false⟩
  ch4 := ⟨0#32, 0#32, false, false, false⟩

/-- Every piece of the block's state stands at the value of R280's table. -/
structure AtReset (t : State) : Prop where
  arg      : t.arg = 0#32
  status   : t.status = ⟨false, 0#4, false, false⟩
  result   : t.result = 0#32
  errCmd   : t.errCmd = 0#32
  timeout  : t.timeout = 0#32
  deadband : t.deadband = 0#7
  seq      : t.seq = ⟨.idle, 0#32, 0#32, none, 0#20, 0#8, 0#32, 0#12⟩
  adc      : t.adc = ⟨false, false, false, false, false, false, false, false, 0#4, 0#3, 0#4, 0#16, false⟩
  timers   : ∀ i, t.timer i = timerAtReset
  pinLog   : t.pinLog = []

/-! ## Waits (R137) -/

/-- The running command `i` waits in micro-step `l`, and the condition of the wait does not hold. -/
def Waiting (s : State) (i : Instr) (l : MicroStep) : Prop :=
  s.seq.mode = .run ∧ decode s.seq.cmd = .ok i ∧ s.seq.step = some l ∧
    ((i = .adcInit ∧ l = .s7 ∧ s.adc.rstcal = true)
      ∨ (i = .adcInit ∧ l = .s9 ∧ s.adc.cal = true)
      ∨ (∃ ch, i = .adcSample ch ∧ l = .s3 ∧ s.adc.eoc = false)
      ∨ (∃ ch times, i = .adcAvg ch times ∧ l = .s4 ∧ s.adc.eoc = false))

/-- The commands that read the 32-bit operand (R104). -/
def readsOperand : Instr → Bool
  | .adcInit => false
  | .adcSample _ => false
  | .adcAvg _ _ => false
  | .adcToVolt => true
  | .adcSetTimeout => true
  | .pwmInit _ => true
  | .pwmSetDuty _ _ => true
  | .pwmStart _ _ => false
  | .pwmStop _ _ => false
  | .motorInit => false
  | .motorSetSpeed _ => true
  | .motorStop _ => false
  | .motorSetDeadband => true
  | .servoInit => false
  | .servoSetAngle _ => true

/-- A selector of the command lies outside its domain (R105). -/
def SelectorInvalid : Instr → Prop
  | .adcInit => False
  | .adcSample ch => 10 ≤ ch.toNat
  | .adcAvg ch times => 10 ≤ ch.toNat ∨ times.toNat = 0
  | .adcToVolt => False
  | .adcSetTimeout => False
  | .pwmInit t => 3 ≤ t.toNat
  | .pwmSetDuty t c => 3 ≤ t.toNat ∨ c.toNat = 0 ∨ 5 ≤ c.toNat
  | .pwmStart t c => 3 ≤ t.toNat ∨ c.toNat = 0 ∨ 5 ≤ c.toNat
  | .pwmStop t c => 3 ≤ t.toNat ∨ c.toNat = 0 ∨ 5 ≤ c.toNat
  | .motorInit => False
  | .motorSetSpeed id => id.toNat = 0 ∨ 3 ≤ id.toNat
  | .motorStop id => id.toNat = 0 ∨ 3 ≤ id.toNat
  | .motorSetDeadband => False
  | .servoInit => False
  | .servoSetAngle id => id.toNat = 0 ∨ 3 ≤ id.toNat

/-- A result with its next state changed by `f`. -/
def mapNext (f : State → State) : Result → Result
  | .next s => .next (f s)
  | .fault x => .fault x
  | .refused r => .refused r

/-- The moves of an averaging command whose conversions each finish before their first poll, with the draws `vs`. -/
def averagingMoves (vs : List (BitVec 12)) : List Move :=
  [.sequencer, .sequencer]
    ++ vs.flatMap (fun v => [Move.sequencer, .converter (.k3 v), .sequencer])
    ++ [.sequencer]

/-- A parameter set meets the constraints of R10 on the parameters that may be overridden. -/
def LegalParams (p : Params) : Prop :=
  (∀ t, 0 < clkHz p t ∧ clkHz p t % 1000000 = 0 ∧ clkHz p t / 1000000 - 1 ≤ 2 ^ 16 - 1)
    ∧ 15 ≤ p.timerBits ∧ p.timerBits ≤ 32

/-- What a K3 move draws, where it is enabled (R44). -/
def drawn (m : Move) (s : State) : List (BitVec 12) :=
  match m with
  | .host _ => []
  | .sequencer => []
  | .converter .k1 => []
  | .converter .k2 => []
  | .converter (.k3 v) => if s.adc.adon && s.adc.pend then [v] else []
  | .tick _ => []
  | .reset => []

/-- The values the converter draws under a list of moves, in order. -/
def drawsOf : List Move → State → List (BitVec 12)
  | [], _ => []
  | m :: ms, s =>
    drawn m s ++
      match s.applyMove m with
      | .next t => drawsOf ms t
      | .fault _ => []
      | .refused _ => []

/-- The averaging command on channel `ch` has completed with the truncated mean of the values `vs` (R139, R141). -/
structure AveragedOf (vs : List (BitVec 12)) (ch : Sel) (times : Byte) (t : State) : Prop where
  done    : t.status.done = true
  lastErr : t.status.lastErr = 0#4
  mean    : t.result.toNat = (vs.map BitVec.toNat).sum / times.toNat
  least   : ∀ lo, (∀ v ∈ vs, lo ≤ v.toNat) → lo ≤ t.result.toNat
  most    : ∀ hi, (∀ v ∈ vs, v.toNat ≤ hi) → t.result.toNat ≤ hi
  chsel   : t.adc.chsel = ch
  settled : t.adc.pend = false ∧ t.adc.eoc = false

end Sys2Proof.Claims

open Sys2Proof Sys2Proof.Machine Sys2Proof.Claims

/-! ## Reset (70_reset_and_hazards.md) -/

/-- R280: the reset value of every piece of state, from `State.reset` and by the reset step from any state, and every
host-visible register reading 0 afterwards. -/
def Obligations.ResetPutsEveryFieldAtItsValue : Prop :=
  AtReset State.reset
  ∧ ∀ s : State, ∃ t, s.applyMove .reset = .next t ∧ AtReset t
    ∧ ∀ off, off < 256 → off % 4 = 0 → t.memRead (Config.aspaBase + off) 4 = .done 0#32

/-- R281: after reset every output is low, every timer is stopped, the converter is off, the sequencer is idle, and no move
of another agent than the host changes anything (that a move without an enabled step changes nothing is the model's own
choice, log entry 3). -/
def Obligations.AfterResetOnlyTheHostActs : Prop :=
  (∀ t c, (State.reset.timer t).out c = false)
  ∧ (∀ t, (State.reset.timer t).cen = false)
  ∧ State.reset.adc.adon = false
  ∧ State.reset.seq.mode = .idle
  ∧ ∀ m, isHostMove m = false → State.reset.applyMove m = .next State.reset

/-! ## Encoding (30_encoding.md) -/

/-- R100, R102: every command's word decodes to that command, with every selector at every value its field holds. -/
def Obligations.EncodedCommandsDecodeToThemselves : Prop :=
  ∀ i : Instr, decode (encode i) = .ok i

/-- R103: a word that decodes to a command is that command's only word. -/
def Obligations.DecodedWordsEncodeBack : Prop :=
  ∀ (w : Word) (i : Instr), decode w = .ok i → encode i = w

/-- R103, R255: a word is illegal exactly when its opcode is unassigned, its `RSV` is not 0, or a field its command does
not use is not 0. The legality check, first in micro-step S1, ends an illegal word with `ILLEGAL_COMMAND` and the
completion state of R253, and lets the micro-step of a legal word's command go on. -/
def Obligations.IllegalWordsAreTheSpecs : Prop :=
  (∀ w : Word, (∃ e, decode w = .error e) ↔
    ((w.opc.toNat = 0 ∨ (0x06 ≤ w.opc.toNat ∧ w.opc.toNat ≤ 0x0F) ∨ (0x14 ≤ w.opc.toNat ∧ w.opc.toNat ≤ 0x1F)
        ∨ (0x24 ≤ w.opc.toNat ∧ w.opc.toNat ≤ 0x2F) ∨ 0x32 ≤ w.opc.toNat)
      ∨ w.rsv ≠ 0#8
      ∨ (w.opc ∈ [0x01#8, 0x04#8, 0x05#8, 0x20#8, 0x23#8, 0x30#8] ∧ (w.f1 ≠ 0#4 ∨ w.f2 ≠ 0#4 ∨ w.f3 ≠ 0#8))
      ∨ (w.opc ∈ [0x02#8, 0x10#8, 0x21#8, 0x22#8, 0x31#8] ∧ (w.f2 ≠ 0#4 ∨ w.f3 ≠ 0#8))
      ∨ (w.opc = 0x03#8 ∧ w.f2 ≠ 0#4)
      ∨ (w.opc ∈ [0x11#8, 0x12#8, 0x13#8] ∧ w.f3 ≠ 0#8)))
  ∧ ∀ s : State, s.seq.mode = .run → s.seq.step = some .s1 →
    (∀ e, decode s.seq.cmd = .error e → s.applyMove .sequencer = .next (failed s 4#4))
    ∧ ∀ i, decode s.seq.cmd = .ok i → s.applyMove .sequencer = exec i s

/-- R106: no two rows match one word, and the decoder answers the command of the row that matches, or illegal when none
does. -/
def Obligations.EachWordMatchesAtMostOneRow : Prop :=
  commandRows.Pairwise (fun a b => ∀ w, ¬ (w &&& a.mask = a.fixed ∧ w &&& b.mask = b.fixed))
  ∧ (∀ w, ∀ r ∈ commandRows, w &&& r.mask = r.fixed → decode w = .ok (r.build w))
  ∧ ∀ w, (∀ r ∈ commandRows, w &&& r.mask ≠ r.fixed) → ∃ e, decode w = .error e

/-- R109: the worked encodings, as the words and operands that the statements of R107 expand to, with the decoder
reading each word back. -/
def Obligations.WorkedEncodings : Prop :=
  AsmCmd.expand .adcInit = [.wr 0x00 (.lit 0x00000001#32), .poll 0x08 1#32 (.lit 0#32)]
  ∧ AsmCmd.expand (.adcSample 3#4) = [.wr 0x00 (.lit 0x00000302#32), .poll 0x08 1#32 (.lit 0#32)]
  ∧ AsmCmd.expand (.adcAvg 3#4 16#8) = [.wr 0x00 (.lit 0x00100303#32), .poll 0x08 1#32 (.lit 0#32)]
  ∧ AsmCmd.expand (.adcAvg 9#4 255#8) = [.wr 0x00 (.lit 0x00FF0903#32), .poll 0x08 1#32 (.lit 0#32)]
  ∧ AsmCmd.expand (.adcVolt (.lit 4095#32))
      = [.wr 0x04 (.lit 0x00000FFF#32), .wr 0x00 (.lit 0x00000004#32), .poll 0x08 1#32 (.lit 0#32)]
  ∧ AsmCmd.expand (.pwmInit 0#4 (.lit 20000#32))
      = [.wr 0x04 (.lit 0x00004E20#32), .wr 0x00 (.lit 0x00000010#32), .poll 0x08 1#32 (.lit 0#32)]
  ∧ AsmCmd.expand (.pwmDuty 0#4 1#4 ⟨false, 333, 1⟩)
      = [.wr 0x04 (.lit 0x42053333#32), .wr 0x00 (.lit 0x00001011#32), .poll 0x08 1#32 (.lit 0#32)]
  ∧ AsmCmd.expand (.pwmStart 1#4 4#4) = [.wr 0x00 (.lit 0x00004112#32), .poll 0x08 1#32 (.lit 0#32)]
  ∧ AsmCmd.expand (.motorSpeed 1#4 60)
      = [.wr 0x04 (.lit 0x0000003C#32), .wr 0x00 (.lit 0x00000121#32), .poll 0x08 1#32 (.lit 0#32)]
  ∧ AsmCmd.expand (.motorSpeed 1#4 (-60))
      = [.wr 0x04 (.lit 0xFFFFFFC4#32), .wr 0x00 (.lit 0x00000121#32), .poll 0x08 1#32 (.lit 0#32)]
  ∧ AsmCmd.expand (.motorStop 2#4) = [.wr 0x00 (.lit 0x00000222#32), .poll 0x08 1#32 (.lit 0#32)]
  ∧ AsmCmd.expand (.servoAngle 1#4 ⟨false, 900, 1⟩)
      = [.wr 0x04 (.lit 0x42B40000#32), .wr 0x00 (.lit 0x00000131#32), .poll 0x08 1#32 (.lit 0#32)]
  ∧ decode 0x00FF0903#32 = .ok (.adcAvg 9#4 255#8)
  ∧ decode 0x00001011#32 = .ok (.pwmSetDuty 0#4 1#4)
  ∧ decode 0x00000222#32 = .ok (.motorStop 2#4)
  ∧ decode 0x00000131#32 = .ok (.servoSetAngle 1#4)

/-! ## The step -/

/-- R16, R31, R255: when the sequencer moves next and the word it holds decodes to `i`, the step is the meaning of `i`,
in the state whose agenda has lost that move (the agenda is the model's own, log entry 2); and the step after a command
word is placed by `withFetchWord` is the meaning of that word's command in the state its acceptance leaves (log entry
11). -/
def Obligations.StepRunsTheDecodedCommand : Prop :=
  (∀ (s : State) (i : Instr) (rest : List Move), paramsValid s.params = true → s.agenda = .sequencer :: rest →
    s.seq.mode = .run → decode s.seq.cmd = .ok i → step s = exec i { s with agenda := rest })
  ∧ ∀ (s : State) (w : Word) (i : Instr), paramsValid s.params = true → decode w = .ok i →
    step (s.withFetchWord 32 w.toNat) =
      exec i { s with
        seq := { s.seq with cmd := w, arg := s.arg, mode := .run, step := some .s1 }
        status := { s.status with done := false } }

/-- R10, R260: a step, and a host program's run under any turns, is refused exactly when the parameter set breaks a
constraint of R10, and the fixed parameters meet theirs. -/
def Obligations.BrokenParameterSetsAreRefused : Prop :=
  (∀ s : State, step s = .refused .parameterSet ↔ ¬ LegalParams s.params)
  ∧ (∀ (p : List Stmt) (ts : List Turn) (h : HostCtx) (s : State),
    runTurns p ts h s = .refused .parameterSet ↔ ¬ LegalParams s.params)
  ∧ Config.sysclkHz / Config.adcDiv ≤ Config.adcClkMaxHz
  ∧ 20 ≤ Config.accBits
  ∧ Config.motorTimer ≠ Config.servoTimer
  ∧ 1 ≤ Config.adcDiv ∧ Config.adcDiv ≤ 15

/-! ## The register window (10_state.md, 20_memory.md) -/

/-- R250, R251: a `CMD` write is accepted by an idle sequencer and dropped by a running one. -/
def Obligations.CmdWriteIsAcceptedOrDropped : Prop :=
  ∀ (s : State) (w : Word),
    (s.seq.mode = .idle →
      s.applyMove (.host (.write Config.aspaBase 4 w)) =
        .next { s with
          seq := { s.seq with cmd := w, arg := s.arg, mode := .run, step := some .s1 }
          status := { s.status with done := false } })
    ∧ (s.seq.mode = .run →
      s.applyMove (.host (.write Config.aspaBase 4 w)) = .next { s with status := { s.status with ovr := true } })

/-- R87: what a host read of each offset returns, and that the host's read move hands over just that value (to the
model's own read-data field, log entry 5) and changes nothing else; the layouts of the views are stated by their own
claims. -/
def Obligations.HostReadsTheRegisterMap : Prop :=
  ∀ s : State,
    s.memRead (Config.aspaBase + 0x00) 4 = .done 0#32
    ∧ s.memRead (Config.aspaBase + 0x04) 4 = .done s.arg
    ∧ s.memRead (Config.aspaBase + 0x08) 4 = .done s.statusView
    ∧ s.memRead (Config.aspaBase + 0x0C) 4 = .done s.result
    ∧ s.memRead (Config.aspaBase + 0x10) 4 = .done s.errCmd
    ∧ s.memRead (Config.aspaBase + 0x14) 4 = .done s.timeout
    ∧ s.memRead (Config.aspaBase + 0x18) 4 = .done (BitVec.ofNat 32 s.deadband.toNat)
    ∧ s.memRead (Config.aspaBase + 0x20) 4 = .done s.adc.ctrlView
    ∧ s.memRead (Config.aspaBase + 0x24) 4 = .done (BitVec.ofNat 32 s.adc.dr.toNat)
    ∧ (∀ t, s.memRead (Config.aspaBase + (0x40 + 0x20 * timerNum t + 0x00)) 4 = .done (s.timer t).ctrlView
      ∧ s.memRead (Config.aspaBase + (0x40 + 0x20 * timerNum t + 0x04)) 4
          = .done (BitVec.ofNat 32 (s.timer t).pscPre.toNat)
      ∧ s.memRead (Config.aspaBase + (0x40 + 0x20 * timerNum t + 0x08)) 4 = .done (s.timer t).arrPre
      ∧ s.memRead (Config.aspaBase + (0x40 + 0x20 * timerNum t + 0x0C)) 4 = .done (s.timer t).cnt
      ∧ ∀ c, s.memRead (Config.aspaBase + (0x40 + 0x20 * timerNum t + 0x10 + 4 * (chanNum c - 1))) 4
          = .done ((s.timer t).ch c).ccrPre)
    ∧ (∀ off, off % 4 = 0 → (off = 0x1C ∨ (0x28 ≤ off ∧ off ≤ 0x3C) ∨ (0xA0 ≤ off ∧ off ≤ 0xFC)) →
        s.memRead (Config.aspaBase + off) 4 = .done 0#32)
    ∧ ∀ off, off < 256 → off % 4 = 0 → ∃ v, s.memRead (Config.aspaBase + off) 4 = .done v
        ∧ s.applyMove (.host (.read (Config.aspaBase + off) 4)) = .next { s with hostRdata := v }

/-- R36: the fields of `STATUS`, what a host write to it clears, and which moves can set the two sticky bits. -/
def Obligations.StatusRegister : Prop :=
  (∀ s : State,
    s.statusView.getLsbD 0 = decide (s.seq.mode = .run)
    ∧ s.statusView.getLsbD 1 = s.status.done
    ∧ s.statusView.extractLsb' 2 2 = 0#2
    ∧ s.statusView.extractLsb' 4 4 = s.status.lastErr
    ∧ s.statusView.getLsbD 8 = s.status.errSticky
    ∧ s.statusView.getLsbD 9 = s.status.ovr
    ∧ s.statusView.getLsbD 10 = s.adc.ready
    ∧ s.statusView.extractLsb' 11 5 = 0#5
    ∧ (∀ t, s.statusView.getLsbD (16 + timerNum t) = (s.timer t).ready)
    ∧ s.statusView.extractLsb' 19 13 = 0#13)
  ∧ (∀ (s : State) (w : Word),
    s.applyMove (.host (.write (Config.aspaBase + 0x08) 4 w)) =
      .next { s with
        status := { s.status with
          errSticky := if w.getLsbD 8 then false else s.status.errSticky
          ovr := if w.getLsbD 9 then false else s.status.ovr } })
  ∧ ∀ (s t : State) (m : Move), s.applyMove m = .next t →
    (s.status.errSticky = false → t.status.errSticky = true →
      m = .sequencer ∧ s.seq.mode = .run ∧ t.seq.mode = .idle ∧ t.status.lastErr ≠ 0#4)
    ∧ (s.status.ovr = false → t.status.ovr = true →
      s.seq.mode = .run ∧ ∃ w, m = .host (.write Config.aspaBase 4 w))

/-- R42: the fields of `ADC_CTRL`. -/
def Obligations.AdcCtrlRegister : Prop :=
  ∀ a : Adc,
    a.ctrlView.getLsbD 0 = a.adon ∧ a.ctrlView.getLsbD 1 = a.cont ∧ a.ctrlView.getLsbD 2 = a.align
    ∧ a.ctrlView.getLsbD 3 = a.swtrig ∧ a.ctrlView.getLsbD 4 = a.rstcal ∧ a.ctrlView.getLsbD 5 = a.cal
    ∧ a.ctrlView.getLsbD 6 = a.eoc ∧ a.ctrlView.getLsbD 7 = a.ready
    ∧ a.ctrlView.extractLsb' 8 4 = a.div
    ∧ a.ctrlView.extractLsb' 12 3 = a.smp
    ∧ a.ctrlView.getLsbD 15 = false
    ∧ a.ctrlView.extractLsb' 16 4 = a.chsel
    ∧ a.ctrlView.extractLsb' 20 12 = 0#12
    ∧ ∀ b, Adc.ctrlView { a with pend := b } = a.ctrlView

/-- R47, R177: the fields of `TIM_CTRL[t]`, the live output levels among them. R50: of the hidden fields only the active
compare values show in it, and only in the output levels. -/
def Obligations.TimCtrlRegister : Prop :=
  ∀ t : Timer,
    t.ctrlView.getLsbD 0 = t.cen ∧ t.ctrlView.getLsbD 1 = t.arpe ∧ t.ctrlView.getLsbD 2 = t.ready
    ∧ t.ctrlView.getLsbD 3 = false
    ∧ (∀ c, t.ctrlView.getLsbD (3 + chanNum c) = (t.ch c).cce
      ∧ t.ctrlView.getLsbD (7 + chanNum c) = (t.ch c).pwm1
      ∧ t.ctrlView.getLsbD (11 + chanNum c) = (t.ch c).ocpe
      ∧ (t.ctrlView.getLsbD (15 + chanNum c) = true ↔
          (t.ch c).cce = true ∧ (t.ch c).pwm1 = true ∧ t.cnt.toNat < (t.ch c).ccrAct.toNat))
    ∧ t.ctrlView.extractLsb' 20 12 = 0#12
    ∧ ∀ psc arr cnt, Timer.ctrlView { t with pscAct := psc, arrAct := arr, pscCnt := cnt } = t.ctrlView

/-- R88: a host write acts on `CMD`, `ARG` and `STATUS` and on nothing else, and the host's write move does just what the
write function answers. -/
def Obligations.HostWritesActOnThreeRegisters : Prop :=
  ∀ (s : State) (w : Word),
    s.applyMove (.host (.write Config.aspaBase 4 w)) = .next (s.cmdWrite w)
    ∧ s.applyMove (.host (.write (Config.aspaBase + 0x04) 4 w)) = .next { s with arg := w }
    ∧ s.applyMove (.host (.write (Config.aspaBase + 0x08) 4 w)) =
        .next { s with
          status := { s.status with
            errSticky := if w.getLsbD 8 then false else s.status.errSticky
            ovr := if w.getLsbD 9 then false else s.status.ovr } }
    ∧ (∀ off, off < 256 → off % 4 = 0 → 0x0C ≤ off →
        s.applyMove (.host (.write (Config.aspaBase + off) 4 w)) = .next s)
    ∧ (∀ off, off < 256 → off % 4 ≠ 0 →
        s.applyMove (.host (.write (Config.aspaBase + off) 4 w)) = .fault (.busError (Config.aspaBase + off) 4))
    ∧ ∀ off, off < 256 → off % 4 = 0 → ∃ t, s.memWrite (Config.aspaBase + off) 4 w = .done t
        ∧ s.applyMove (.host (.write (Config.aspaBase + off) 4 w)) = .next t

/-- R82: an access inside the window that is not 32 bits wide and word-aligned is the fault `BusError`. -/
def Obligations.OtherAccessesAreBusErrors : Prop :=
  ∀ (s : State) (off n : Nat) (w : Word), off < 256 → (n ≠ 4 ∨ off % 4 ≠ 0) →
    s.applyMove (.host (.read (Config.aspaBase + off) n)) = .fault (.busError (Config.aspaBase + off) n)
    ∧ s.applyMove (.host (.write (Config.aspaBase + off) n w)) = .fault (.busError (Config.aspaBase + off) n)

/-- R85: no read has a side effect on the block (the data goes to the model's own read-data field, log entry 5), and a
repeated write to any offset but `CMD` does what the first did. -/
def Obligations.ReadsAreIdleAndWritesIdempotent : Prop :=
  (∀ (s t : State) (a n : Nat), s.applyMove (.host (.read a n)) = .next t → t = { s with hostRdata := t.hostRdata })
  ∧ (∀ (s : State) (w : Word) (off : Nat), off < 256 → off % 4 = 0 → off ≠ 0 →
      ∃ t, s.memWrite (Config.aspaBase + off) 4 w = .done t ∧ t.memWrite (Config.aspaBase + off) 4 w = .done t)
  ∧ ∃ (s t u : State) (w : Word), s.memWrite Config.aspaBase 4 w = .done t
      ∧ t.memWrite Config.aspaBase 4 w = .done u ∧ u ≠ t

/-- R286: no host access ends a wait or changes the running command, the units, the result or the budget. -/
def Obligations.HostCannotDisturbARunningCommand : Prop :=
  ∀ (s t : State) (a : HostAccess), s.seq.mode = .run → s.applyMove (.host a) = .next t →
    t.seq = s.seq ∧ t.adc = s.adc ∧ (∀ i, t.timer i = s.timer i) ∧ t.result = s.result ∧ t.errCmd = s.errCmd
    ∧ t.timeout = s.timeout ∧ t.deadband = s.deadband ∧ t.pinLog = s.pinLog
    ∧ t.status.done = s.status.done ∧ t.status.lastErr = s.status.lastErr

/-! ## The ADC Sampler (40_adc.md) -/

/-- R132: the ten micro-steps of `ADC_INIT`; it completes in S10. -/
def Obligations.AdcInitMicroSteps : Prop :=
  ∀ s : State,
    (s.seq.step = some .s1 →
      exec .adcInit s = .next (wentTo { s with adc := { s.adc with ready := false, div := 6#4 } } .s2))
    ∧ (s.seq.step = some .s2 →
      exec .adcInit s =
        .next (wentTo { s with pinLog := s.pinLog ++ Config.adcPins.map (fun p => ⟨p, .analog, 0⟩) } .s3))
    ∧ (s.seq.step = some .s3 →
      exec .adcInit s =
        .next (wentTo { s with adc := { s.adc with cont := false, swtrig := true, align := false, smp := 7#3 } } .s4))
    ∧ (s.seq.step = some .s4 → exec .adcInit s = .next (wentTo { s with adc := { s.adc with adon := true } } .s5))
    ∧ (s.seq.step = some .s5 → exec .adcInit s = .next (wentTo s .s6))
    ∧ (s.seq.step = some .s6 →
      exec .adcInit s =
        .next (wentTo { s with
          adc := { s.adc with rstcal := true }
          seq := { s.seq with polls := 0#32 } } .s7))
    ∧ (s.seq.step = some .s7 →
      exec .adcInit s = .next (if s.adc.rstcal then pollFailed s else wentTo s .s8))
    ∧ (s.seq.step = some .s8 →
      exec .adcInit s =
        .next (wentTo { s with
          adc := { s.adc with cal := true }
          seq := { s.seq with polls := 0#32 } } .s9))
    ∧ (s.seq.step = some .s9 →
      exec .adcInit s = .next (if s.adc.cal then pollFailed s else wentTo s .s10))
    ∧ (s.seq.step = some .s10 →
      exec .adcInit s = .next (completed { s with adc := { s.adc with ready := true } }))

/-- R138, R136, R148: the micro-steps of `ADC_SAMPLE`; it completes in S4. -/
def Obligations.AdcSampleMicroSteps : Prop :=
  ∀ (s : State) (ch : Sel),
    (s.seq.step = some .s1 →
      exec (.adcSample ch) s =
        .next (if 9 < ch.toNat then failed s 1#4 else if s.adc.ready = false then failed s 5#4 else wentTo s .s2))
    ∧ (s.seq.step = some .s2 →
      exec (.adcSample ch) s =
        .next (wentTo { s with
          adc := { s.adc with chsel := ch, eoc := false, pend := true }
          seq := { s.seq with polls := 0#32 } } .s3))
    ∧ (s.seq.step = some .s3 →
      exec (.adcSample ch) s =
        .next (if s.adc.eoc then
            wentTo { s with
              adc := { s.adc with eoc := false }
              seq := { s.seq with val := s.adc.dr.extractLsb' 0 12 } } .s4
          else pollFailed s))
    ∧ (s.seq.step = some .s4 →
      exec (.adcSample ch) s = .next (completed { s with result := BitVec.ofNat 32 s.seq.val.toNat }))

/-- R139, R140: the micro-steps of `ADC_AVG`; it completes in S5. A state with `F3 = 0` past S1 has no S5 to run. -/
def Obligations.AdcAvgMicroSteps : Prop :=
  ∀ (s : State) (ch : Sel) (times : Byte),
    (s.seq.step = some .s1 →
      exec (.adcAvg ch times) s =
        .next (if 9 < ch.toNat then failed s 1#4
          else if times = 0#8 then failed s 1#4
          else if s.adc.ready = false then failed s 5#4
          else wentTo s .s2))
    ∧ (s.seq.step = some .s2 →
      exec (.adcAvg ch times) s = .next (wentTo { s with seq := { s.seq with acc := 0#20, k := 0#8 } } .s3))
    ∧ (s.seq.step = some .s3 →
      exec (.adcAvg ch times) s =
        .next (wentTo { s with
          adc := { s.adc with chsel := ch, eoc := false, pend := true }
          seq := { s.seq with polls := 0#32 } } .s4))
    ∧ (s.seq.step = some .s4 →
      exec (.adcAvg ch times) s =
        .next (if s.adc.eoc then
            wentTo { s with
              adc := { s.adc with eoc := false }
              seq := { s.seq with
                val := s.adc.dr.extractLsb' 0 12
                acc := BitVec.ofNat 20 (min (s.seq.acc.toNat + (s.adc.dr.extractLsb' 0 12).toNat) (2 ^ 20 - 1))
                k := s.seq.k + 1#8 } }
              (if s.seq.k.toNat + 1 < times.toNat then .s3 else .s5)
          else pollFailed s))
    ∧ (s.seq.step = some .s5 → times ≠ 0#8 →
      exec (.adcAvg ch times) s =
        .next (completed { s with result := BitVec.ofNat 32 (s.seq.acc.toNat / times.toNat) }))

/-- R142: `ADC_TO_VOLT`, whatever the ADC's state. -/
def Obligations.AdcToVoltResult : Prop :=
  ∀ s : State, s.seq.step = some .s1 →
    (4095 < s.seq.arg.toNat → exec .adcToVolt s = .next (failed s 1#4))
    ∧ (s.seq.arg.toNat ≤ 4095 →
      exec .adcToVolt s =
        .next (completed { s with result := rne32 ((s.seq.arg.toNat : Rat) * 33 / 40950) }))

/-- R14: the voltage of a reading is a binary32 value nearest the exact one: no finite pattern is nearer. -/
def Obligations.VoltageIsANearestBinary32 : Prop :=
  ∀ (r : Nat) (f : Word), r ≤ 4095 → expField f ≠ 0xFF#8 →
    |finiteValue (voltage r) - (r : Rat) * 33 / 40950| ≤ |finiteValue f - (r : Rat) * 33 / 40950|

/-- R143: the voltage is monotone in the reading, 0.0 exactly at 0, and the binary32 nearest 3.3 at 4095. -/
def Obligations.VoltageIsMonotone : Prop :=
  (∀ r1 r2 : Nat, r1 ≤ r2 → r2 ≤ 4095 → finiteValue (voltage r1) ≤ finiteValue (voltage r2))
  ∧ voltage 0 = 0#32
  ∧ voltage 4095 = rne32 (33 / 10) ∧ voltage 4095 = 0x40533333#32

/-- R145: `ADC_SET_TIMEOUT`. -/
def Obligations.AdcSetTimeoutResult : Prop :=
  ∀ s : State, s.seq.step = some .s1 → exec .adcSetTimeout s = .next (completed { s with timeout := s.seq.arg })

/-- R137: with `TIMEOUT = N > 0` a wait that never finds its condition counts its failed polls and ends with
`HARDWARE_TIMEOUT` after exactly `N` of them, abandoning the conversion. -/
def Obligations.WaitEndsAfterExactlyTimeoutPolls : Prop :=
  ∀ (s : State) (i : Instr) (l : MicroStep), Waiting s i l → s.timeout ≠ 0#32 → s.seq.polls = 0#32 →
    (∀ k < s.timeout.toNat,
      sequencerRun k s = .next { s with seq := { s.seq with polls := BitVec.ofNat 32 k } })
    ∧ sequencerRun s.timeout.toNat s =
        .next (failed { s with
          seq := { s.seq with polls := s.timeout }
          adc := { s.adc with pend := false } } 3#4)

/-- R137, R260: with `TIMEOUT = 0` and a converter that never steps, a wait never ends: whatever the host, the sequencer
and the timers do, short of a reset, the command still waits. -/
def Obligations.UnboundedWaitCanHang : Prop :=
  ∀ (s : State) (i : Instr) (l : MicroStep) (ms : List Move), Waiting s i l → s.timeout = 0#32 →
    (∀ m ∈ ms, m ≠ .reset ∧ ∀ e, m ≠ .converter e) →
    (∃ t, runMoves ms s = .next t ∧ Waiting t i l ∧ t.statusView.getLsbD 0 = true)
    ∨ ∃ a n, runMoves ms s = .fault (.busError a n)

/-- R139, R141: the averaging pipeline, first under one schedule and then under every one. Under the schedule
`averagingMoves`, whose conversions each finish before their first poll, the command completes. Under any moves without a
reset, whatever the host, the timers and the converter do between the polls and however many polls fail, a command that
has ended either drew exactly `times` values and has their truncated mean in `RESULT`, between the least and the greatest
of them, or ended with `HARDWARE_TIMEOUT` after `TIMEOUT > 0` failed polls of one wait, with `RESULT` unchanged. -/
def Obligations.AveragingComputesTheTruncatedMean : Prop :=
  ∀ (s : State) (ch : Sel) (times : Byte), s.seq.mode = .run → decode s.seq.cmd = .ok (.adcAvg ch times) →
    s.seq.step = some .s1 → ch.toNat ≤ 9 → s.adc.ready = true → times ≠ 0#8 →
    (∀ vs : List (BitVec 12), s.adc.adon = true → vs.length = times.toNat →
      ∃ t, runMoves (averagingMoves vs) s = .next t ∧ t.seq.mode = .idle ∧ AveragedOf vs ch times t)
    ∧ ∀ (ms : List Move) (t : State), BlockInv s → (∀ m ∈ ms, m ≠ .reset) →
      (∀ k < ms.length, ∀ u, runMoves (ms.take k) s = .next u → u.seq.mode = .run) →
      runMoves ms s = .next t → t.seq.mode = .idle →
      ((drawsOf ms s).length = times.toNat ∧ AveragedOf (drawsOf ms s) ch times t)
      ∨ (t.status.lastErr = 3#4 ∧ s.timeout ≠ 0#32 ∧ t.seq.polls = s.timeout ∧ t.result = s.result)

/-- R44: the three steps of the converter, each under its condition. -/
def Obligations.ConverterSteps : Prop :=
  ∀ s : State, s.adc.adon = true →
    (s.adc.rstcal = true →
      s.applyMove (.converter .k1) = .next { s with adc := { s.adc with rstcal := false } })
    ∧ (s.adc.cal = true → s.applyMove (.converter .k2) = .next { s with adc := { s.adc with cal := false } })
    ∧ (s.adc.pend = true → ∀ v : BitVec 12,
      s.applyMove (.converter (.k3 v)) =
        .next { s with adc := { s.adc with dr := BitVec.ofNat 16 v.toNat, eoc := true, pend := false } })

/-! ## The PWM Generator (41_pwm.md) -/

/-- R180, R172 to R174: the micro-steps of `PWM_INIT`; it completes in S2. -/
def Obligations.PwmInitMicroSteps : Prop :=
  ∀ (s : State) (t : Sel),
    (s.seq.step = some .s1 →
      (3 ≤ t.toNat → exec (.pwmInit t) s = .next (failed s 1#4))
      ∧ (t.toNat < 3 →
        exec (.pwmInit t) s =
          .next (if s.seq.arg.toNat = 0 ∨ 1000000 < s.seq.arg.toNat then failed s 1#4
            else if 2 ^ s.params.timerBits - 2 < 1000000 / s.seq.arg.toNat - 1 then failed s 2#4
            else wentTo s .s2)))
    ∧ (s.seq.step = some .s2 → ∀ tid, t.toNat = timerNum tid →
      1 ≤ s.seq.arg.toNat → s.seq.arg.toNat ≤ 1000000 →
      1000000 / s.seq.arg.toNat - 1 ≤ 2 ^ s.params.timerBits - 2 →
      exec (.pwmInit t) s =
        .next (completed (s.setTimer tid (timerInitialised (s.timer tid) (prescaler s.params tid)
          (BitVec.ofNat 32 (1000000 / s.seq.arg.toNat - 1))))))

/-- R172, R175: with 16-bit timers `PERIOD` accepts exactly 16 Hz to 1 MHz, and the achieved frequency
`1,000,000 / (P + 1)` is the target or above it, with the next longer period below the target. -/
def Obligations.PeriodOfAFrequency : Prop :=
  (∀ f p, periodOf 16 f = .ok p ↔ 16 ≤ f ∧ f ≤ 1000000 ∧ (p + 1) * f ≤ 1000000 ∧ 1000000 < (p + 2) * f)
  ∧ (∀ bits f, periodOf bits f = .error .invalidArgument ↔ f = 0 ∨ 1000000 < f)
  ∧ ∀ bits f p, 15 ≤ bits → periodOf bits f = .ok p → p + 1 < 2 ^ bits ∧ p ≤ 999999

/-- R182, R183: `PWM_SET_DUTY`. -/
def Obligations.PwmSetDutyResult : Prop :=
  ∀ (s : State) (t c : Sel), s.seq.step = some .s1 →
    ((3 ≤ t.toNat ∨ c.toNat < 1 ∨ 4 < c.toNat) → exec (.pwmSetDuty t c) s = .next (failed s 1#4))
    ∧ ∀ tid cid, t.toNat = timerNum tid → c.toNat = chanNum cid →
      ((s.timer tid).ready = false → exec (.pwmSetDuty t c) s = .next (failed s 5#4))
      ∧ ((s.timer tid).ready = true →
        exec (.pwmSetDuty t c) s =
          .next (completed (withCcr s tid cid (pulse s.seq.arg (s.timer tid).arrPre.toNat))))

/-- R176: the duty-to-compare mapper: the operand's value clamped to `[0, 100]`, a NaN and `-inf` as 0 and `+inf` as 100,
the exact product rounded to the nearest count with ties up, and the result within `[0, ARR + 1]`. -/
def Obligations.PulseLaw : Prop :=
  ∀ (f : Word) (arr : Nat), ∃ q : Rat,
    (isNaN f = true → q = 0) ∧ (f = 0xFF800000#32 → q = 0) ∧ (f = 0x7F800000#32 → q = 100)
    ∧ (expField f ≠ 0xFF#8 →
      (finiteValue f ≤ 0 → q = 0) ∧ (100 ≤ finiteValue f → q = 100)
        ∧ (0 ≤ finiteValue f → finiteValue f ≤ 100 → q = finiteValue f))
    ∧ (pulse f arr : Rat) ≤ q * ((arr : Rat) + 1) / 100 + 1 / 2
    ∧ q * ((arr : Rat) + 1) / 100 + 1 / 2 < (pulse f arr : Rat) + 1
    ∧ pulse f arr ≤ arr + 1

/-- R185, R186: `PWM_START` and `PWM_STOP` set and clear the output enable of one channel and touch nothing else. -/
def Obligations.PwmStartAndStopResult : Prop :=
  ∀ (s : State) (t c : Sel), s.seq.step = some .s1 →
    ((3 ≤ t.toNat ∨ c.toNat < 1 ∨ 4 < c.toNat) →
      exec (.pwmStart t c) s = .next (failed s 1#4) ∧ exec (.pwmStop t c) s = .next (failed s 1#4))
    ∧ ∀ tid cid, t.toNat = timerNum tid → c.toNat = chanNum cid →
      ((s.timer tid).ready = false →
        exec (.pwmStart t c) s = .next (failed s 5#4) ∧ exec (.pwmStop t c) s = .next (failed s 5#4))
      ∧ ((s.timer tid).ready = true →
        exec (.pwmStart t c) s = .next (completed (withCce s tid cid true))
        ∧ exec (.pwmStop t c) s = .next (completed (withCce s tid cid false)))

/-- R170, R171: the tick of a running timer and its update event. -/
def Obligations.TimerTick : Prop :=
  ∀ (s : State) (t : TimerId), (s.timer t).cen = true →
    s.applyMove (.tick t) =
      .next (s.setTimer t
        (if (s.timer t).pscCnt.toNat < (s.timer t).pscAct.toNat then
          { s.timer t with pscCnt := (s.timer t).pscCnt + 1#16 }
        else if (s.timer t).arrAct.toNat ≤ (s.timer t).cnt.toNat then timerWrapped (s.timer t)
        else { s.timer t with pscCnt := 0#16, cnt := (s.timer t).cnt + 1#32 }))

/-- The conditions of R31, R44 and R170 under which an agent has a step. A move whose agent has no step changes nothing:
that stutter is the model's own choice (log entry 3). -/
def Obligations.DisabledMovesChangeNothing : Prop :=
  ∀ s : State,
    (s.seq.mode = .idle → s.applyMove .sequencer = .next s)
    ∧ (∀ t, (s.timer t).cen = false → s.applyMove (.tick t) = .next s)
    ∧ (s.adc.adon = false → ∀ e, s.applyMove (.converter e) = .next s)
    ∧ (s.adc.rstcal = false → s.applyMove (.converter .k1) = .next s)
    ∧ (s.adc.cal = false → s.applyMove (.converter .k2) = .next s)
    ∧ (s.adc.pend = false → ∀ v, s.applyMove (.converter (.k3 v)) = .next s)

/-- R170, R175: one output period is `(PSC_ACT + 1) * (ARR_ACT + 1)` timer-clock cycles: inside it the counters stand at
the quotient and the remainder of the cycle count, and at its end the update event happens. -/
def Obligations.OutputPeriodLength : Prop :=
  ∀ t : Timer, t.cnt = 0#32 → t.pscCnt = 0#16 →
    (∀ j < (t.pscAct.toNat + 1) * (t.arrAct.toNat + 1),
      tickRun j t =
        { t with
          cnt := BitVec.ofNat 32 (j / (t.pscAct.toNat + 1))
          pscCnt := BitVec.ofNat 16 (j % (t.pscAct.toNat + 1)) })
    ∧ tickRun ((t.pscAct.toNat + 1) * (t.arrAct.toNat + 1)) t = timerWrapped t

/-- R178: an enabled channel in PWM mode 1 is high for `min(CCR_ACT, ARR_ACT + 1)` of the `ARR_ACT + 1` counter values of
a period. -/
def Obligations.OutputDuty : Prop :=
  ∀ (t : Timer) (c : ChanId), (t.ch c).cce = true → (t.ch c).pwm1 = true →
    (List.range (t.arrAct.toNat + 1)).countP (fun v => Timer.out { t with cnt := BitVec.ofNat 32 v } c)
      = min (t.ch c).ccrAct.toNat (t.arrAct.toNat + 1)

/-- R50, R171, R174, R184: the active copies of a timer change only at its update event, at the forced load of a stopped
timer, and at reset. `PSC_CNT`, which R50 names among them, changes at every tick of a running timer, as R170 writes it
(log entry 22), and at nothing else. -/
def Obligations.ActiveCopiesChangeOnlyAtUpdates : Prop :=
  ∀ (s t : State) (m : Move) (i : TimerId), BlockInv s → s.applyMove m = .next t → m ≠ .reset →
    (((t.timer i).pscAct ≠ (s.timer i).pscAct ∨ (t.timer i).arrAct ≠ (s.timer i).arrAct
        ∨ ∃ c, ((t.timer i).ch c).ccrAct ≠ ((s.timer i).ch c).ccrAct) →
      (m = .tick i ∧ (s.timer i).cen = true ∧ t.timer i = timerWrapped (s.timer i))
      ∨ (m = .sequencer ∧ (s.timer i).cen = false ∧ (t.timer i).cen = true))
    ∧ ((t.timer i).pscCnt ≠ (s.timer i).pscCnt → m = .tick i ∧ (s.timer i).cen = true)

/-! ## The Motor Driver (42_motor.md) -/

/-- R211: the micro-steps of `MOTOR_INIT`; it completes in S5. -/
def Obligations.MotorInitMicroSteps : Prop :=
  ∀ s : State,
    (s.seq.step = some .s1 → exec .motorInit s = .next (wentTo s .s2))
    ∧ (s.seq.step = some .s2 →
      exec .motorInit s =
        .next (wentTo { s with
          pinLog := s.pinLog ++ Config.motorPins.map (fun p => ⟨p, .afPushPull, Config.afMotor⟩) } .s3))
    ∧ (s.seq.step = some .s3 →
      exec .motorInit s =
        .next (wentTo { s with tim1 := timerInitialised s.tim1 (prescaler s.params .t1) 999#32 } .s4))
    ∧ (s.seq.step = some .s4 →
      exec .motorInit s =
        .next (wentTo { s with
          tim1 := { s.tim1 with
            ch1 := { s.tim1.ch1 with cce := true }
            ch2 := { s.tim1.ch2 with cce := true }
            ch3 := { s.tim1.ch3 with cce := true }
            ch4 := { s.tim1.ch4 with cce := true } } } .s5))
    ∧ (s.seq.step = some .s5 →
      exec .motorInit s =
        .next (completed { s with
          tim1 := { s.tim1 with
            ch1 := ccrWritten s.tim1.ch1 0#32
            ch2 := ccrWritten s.tim1.ch2 0#32
            ch3 := ccrWritten s.tim1.ch3 0#32
            ch4 := ccrWritten s.tim1.ch4 0#32 } }))

/-- R213, R217: `MOTOR_SET_SPEED` writes the pair of its motor, forward on channel `2 * id - 1` and reverse on channel
`2 * id`, in one micro-step. -/
def Obligations.MotorSetSpeedResult : Prop :=
  ∀ (s : State) (id : Sel), s.seq.step = some .s1 →
    ((id.toNat = 0 ∨ 2 < id.toNat) → exec (.motorSetSpeed id) s = .next (failed s 1#4))
    ∧ (1 ≤ id.toNat → id.toNat ≤ 2 →
      (s.tim1.ready = false → exec (.motorSetSpeed id) s = .next (failed s 5#4))
      ∧ (s.tim1.ready = true → ∀ cf cr fwd rev,
        chanNum cf = 2 * id.toNat - 1 → chanNum cr = 2 * id.toNat →
        encodeSpeed s.deadband.toNat s.seq.arg.toInt = (fwd, rev) →
        exec (.motorSetSpeed id) s =
          .next (completed (withCcr (withCcr s .t1 cf (motorPulse fwd s.tim1.arrPre.toNat)) .t1 cr
            (motorPulse rev s.tim1.arrPre.toNat)))))

/-- R212, R218: the sign-magnitude encoder with its dead-band, for every signed speed, and the compare value of a whole
percentage: the exact product rounded with ties up, which is `10 * m` with the motor carrier's period 999. -/
def Obligations.MotorDutyLaw : Prop :=
  (∀ (db : Nat) (x : Int),
    (100 ≤ x → encodeSpeed db x = (if 100 ≤ db then 0 else 100, 0))
    ∧ (x ≤ -100 → encodeSpeed db x = (0, if 100 ≤ db then 0 else 100))
    ∧ (0 ≤ x → x ≤ 100 → encodeSpeed db x = (if x ≤ db then 0 else x.toNat, 0))
    ∧ (-100 ≤ x → x ≤ 0 → encodeSpeed db x = (0, if -x ≤ db then 0 else (-x).toNat)))
  ∧ (∀ m, m ≤ 100 → motorPulse m 999 = 10 * m)
  ∧ ∀ m arr, motorPulse m arr * 200 ≤ 2 * m * (arr + 1) + 100 ∧ 2 * m * (arr + 1) + 100 < (motorPulse m arr + 1) * 200

/-- R214: `MOTOR_STOP` writes 0 to both channels of its motor, and does what `MOTOR_SET_SPEED` does with speed 0. -/
def Obligations.MotorStopResult : Prop :=
  ∀ (s : State) (id : Sel), s.seq.step = some .s1 →
    ((id.toNat = 0 ∨ 2 < id.toNat) → exec (.motorStop id) s = .next (failed s 1#4))
    ∧ (1 ≤ id.toNat → id.toNat ≤ 2 →
      (s.tim1.ready = false → exec (.motorStop id) s = .next (failed s 5#4))
      ∧ (s.tim1.ready = true → ∀ cf cr, chanNum cf = 2 * id.toNat - 1 → chanNum cr = 2 * id.toNat →
        exec (.motorStop id) s = .next (completed (withCcr (withCcr s .t1 cf 0) .t1 cr 0))))
    ∧ (s.seq.arg = 0#32 → exec (.motorStop id) s = exec (.motorSetSpeed id) s)

/-- R215: `MOTOR_SET_DEADBAND`. -/
def Obligations.MotorSetDeadbandResult : Prop :=
  ∀ s : State, s.seq.step = some .s1 →
    (100 < s.seq.arg.toNat → exec .motorSetDeadband s = .next (failed s 1#4))
    ∧ (s.seq.arg.toNat ≤ 100 →
      exec .motorSetDeadband s = .next (completed { s with deadband := BitVec.ofNat 7 s.seq.arg.toNat }))

/-- R216: at most one channel of a motor's pair carries a nonzero compare value, in the preload and in the active
copies, and every step that does not write the motor timer's compare values by `PWM_SET_DUTY` keeps it so. -/
def Obligations.MotorInterlockIsKept : Prop :=
  ∀ s t : State, BlockInv s → Interlock s → ¬ (s.nextMove.1 = .sequencer ∧ drivesMotorTimer s) → step s = .next t →
    Interlock t

/-! ## The Servo Driver (43_servo.md) -/

/-- R231: the micro-steps of `SERVO_INIT`; it completes in S5. -/
def Obligations.ServoInitMicroSteps : Prop :=
  ∀ s : State,
    (s.seq.step = some .s1 → exec .servoInit s = .next (wentTo s .s2))
    ∧ (s.seq.step = some .s2 →
      exec .servoInit s =
        .next (wentTo { s with
          pinLog := s.pinLog ++ Config.servoPins.map (fun p => ⟨p, .afPushPull, Config.afServo⟩) } .s3))
    ∧ (s.seq.step = some .s3 →
      exec .servoInit s =
        .next (wentTo { s with tim2 := timerInitialised s.tim2 (prescaler s.params .t2) 19999#32 } .s4))
    ∧ (s.seq.step = some .s4 →
      exec .servoInit s =
        .next (wentTo { s with
          tim2 := { s.tim2 with
            ch1 := { s.tim2.ch1 with cce := true }
            ch2 := { s.tim2.ch2 with cce := true } } } .s5))
    ∧ (s.seq.step = some .s5 →
      exec .servoInit s =
        .next (completed { s with
          tim2 := { s.tim2 with
            ch1 := ccrWritten s.tim2.ch1 (BitVec.ofNat 32 (servoPulse 0x42B40000#32 s.tim2.arrPre.toNat))
            ch2 := ccrWritten s.tim2.ch2 (BitVec.ofNat 32 (servoPulse 0x42B40000#32 s.tim2.arrPre.toNat)) } }))

/-- R233, R230: `SERVO_SET_ANGLE` writes the channel numbered as its servo. -/
def Obligations.ServoSetAngleResult : Prop :=
  ∀ (s : State) (id : Sel), s.seq.step = some .s1 →
    ((id.toNat = 0 ∨ 2 < id.toNat) → exec (.servoSetAngle id) s = .next (failed s 1#4))
    ∧ (1 ≤ id.toNat → id.toNat ≤ 2 →
      (s.tim2.ready = false → exec (.servoSetAngle id) s = .next (failed s 5#4))
      ∧ (s.tim2.ready = true → ∀ c, chanNum c = id.toNat →
        exec (.servoSetAngle id) s =
          .next (completed (withCcr s .t2 c (servoPulse s.seq.arg s.tim2.arrPre.toNat)))))

/-- R232, R234: the angle-to-pulse scale for any period: the angle clamped to `[0, 180]`, a NaN and `-inf` as 0 and `+inf`
as 180, the duty `5/2 + (a / 180) * 10` exact, and the product rounded once with ties up. On the 50 Hz carrier it is 500 at
0, 1500 at 90 and 2500 at 180 degrees. -/
def Obligations.ServoPulseLaw : Prop :=
  (∀ (f : Word) (arr : Nat), ∃ a : Rat,
    (isNaN f = true → a = 0) ∧ (f = 0xFF800000#32 → a = 0) ∧ (f = 0x7F800000#32 → a = 180)
    ∧ (expField f ≠ 0xFF#8 →
      (finiteValue f ≤ 0 → a = 0) ∧ (180 ≤ finiteValue f → a = 180)
        ∧ (0 ≤ finiteValue f → finiteValue f ≤ 180 → a = finiteValue f))
    ∧ (servoPulse f arr : Rat) ≤ (5 / 2 + a / 180 * 10) * ((arr : Rat) + 1) / 100 + 1 / 2
    ∧ (5 / 2 + a / 180 * 10) * ((arr : Rat) + 1) / 100 + 1 / 2 < (servoPulse f arr : Rat) + 1
    ∧ servoPulse f arr ≤ arr + 1)
  ∧ servoPulse 0x00000000#32 19999 = 500 ∧ servoPulse 0x42B40000#32 19999 = 1500
  ∧ servoPulse 0x43340000#32 19999 = 2500

/-! ## The invariant and whole-machine rules -/

/-- R280: the invariant holds after reset (the invariant is the model's, drawn from the rules its parts cite). -/
def Obligations.ResetMeetsTheInvariant : Prop := BlockInv State.reset ∧ Interlock State.reset

/-- The invariant is kept by every step from every state that meets it, whichever agent moves. -/
def Obligations.StepKeepsTheInvariant : Prop :=
  ∀ s t : State, BlockInv s → step s = .next t → BlockInv t

/-- R291, R82: in a state that meets the invariant every step answers a next state, but for a host access that is a bus
error. -/
def Obligations.OnlyBusErrorsStopTheBlock : Prop :=
  ∀ s : State, BlockInv s →
    (∃ t, step s = .next t)
    ∨ ∃ a addr n, s.nextMove.1 = .host a ∧ step s = .fault (.busError addr n)

/-- R105: the domains of the selector fields. A command with a selector outside its domain ends in S1 with
`INVALID_ARGUMENT` and changes nothing else. -/
def Obligations.SelectorsOutsideTheirDomainAreInvalid : Prop :=
  (∀ i : Instr, i.wellFormed = false ↔ SelectorInvalid i)
  ∧ ∀ (i : Instr) (s : State), SelectorInvalid i → s.seq.step = some .s1 → exec i s = .next (failed s 1#4)

/-- R259: a command that fails in S1 changes nothing but the completion state. -/
def Obligations.FailureInS1ChangesNothingElse : Prop :=
  ∀ (i : Instr) (s t : State), s.seq.mode = .run → s.seq.step = some .s1 → exec i s = .next t →
    t.seq.mode = .idle → t.status.lastErr ≠ 0#4 →
    ∃ code, (code = 1#4 ∨ code = 2#4 ∨ code = 5#4) ∧ t = failed s code

/-- What each command leaves unchanged, whichever of its micro-steps runs (R35, R37 to R39, R51, R52, R284): the operand
register, the latched command and the model's own fields always; the result, the budget, the dead-band, the pin log, the
ADC, the timers and the sequencer's counters unless the command is one that writes them. -/
def Obligations.CommandFrame : Prop :=
  ∀ (i : Instr) (s t : State), exec i s = .next t →
    t.arg = s.arg ∧ t.params = s.params ∧ t.agenda = s.agenda ∧ t.worldCount = s.worldCount
    ∧ t.hostRdata = s.hostRdata ∧ t.seq.cmd = s.seq.cmd ∧ t.seq.arg = s.seq.arg ∧ t.status.ovr = s.status.ovr
    ∧ (t.result ≠ s.result →
        i = .adcToVolt ∨ (∃ ch, i = .adcSample ch) ∨ ∃ ch n, i = .adcAvg ch n)
    ∧ (t.timeout ≠ s.timeout → i = .adcSetTimeout)
    ∧ (t.deadband ≠ s.deadband → i = .motorSetDeadband)
    ∧ s.pinLog <+: t.pinLog ∧ (t.pinLog ≠ s.pinLog → i = .adcInit ∨ i = .motorInit ∨ i = .servoInit)
    ∧ (t.adc ≠ s.adc → waits i = true)
    ∧ (t.seq.polls ≠ s.seq.polls → waits i = true)
    ∧ ((t.seq.acc ≠ s.seq.acc ∨ t.seq.k ≠ s.seq.k) → ∃ ch n, i = .adcAvg ch n)
    ∧ (t.seq.val ≠ s.seq.val → (∃ ch, i = .adcSample ch) ∨ ∃ ch n, i = .adcAvg ch n)
    ∧ ∀ tid, t.timer tid ≠ s.timer tid →
        (∃ x : Sel, x.toNat = timerNum tid
          ∧ (i = .pwmInit x ∨ ∃ c, i = .pwmSetDuty x c ∨ i = .pwmStart x c ∨ i = .pwmStop x c))
        ∨ (tid = .t1 ∧ (i = .motorInit ∨ ∃ id, i = .motorSetSpeed id ∨ i = .motorStop id))
        ∨ (tid = .t2 ∧ (i = .servoInit ∨ ∃ id, i = .servoSetAngle id))

/-- R252, R253, R38: how a command ends, whichever it is. A micro-step that does not end the command leaves `RESULT`,
`ERR_CMD` and the stored fields of `STATUS` alone. One that ends it without an error is `complete`: `LAST_ERR` is 0, the
sequencer is idle with no micro-step, `DONE` is 1, and `ERR_STICKY` and `ERR_CMD` keep their values. One that ends it with
an error is `raise`: `LAST_ERR` is a code from 1 to 5, `ERR_STICKY` is set, `ERR_CMD` is the failing word, and `RESULT` is
not written. No other agent writes `ERR_CMD` or `RESULT`, short of a reset. -/
def Obligations.CommandsEndByCompleteOrRaise : Prop :=
  (∀ s t : State, s.seq.mode = .run → s.applyMove .sequencer = .next t →
    (t.seq.mode = .run → t.result = s.result ∧ t.errCmd = s.errCmd ∧ t.status = s.status)
    ∧ (t.seq.mode = .idle → t.seq.step = none ∧ t.status.done = true ∧ t.status.ovr = s.status.ovr
      ∧ ((t.status.lastErr = 0#4 ∧ t.status.errSticky = s.status.errSticky ∧ t.errCmd = s.errCmd)
        ∨ (1 ≤ t.status.lastErr.toNat ∧ t.status.lastErr.toNat ≤ 5 ∧ t.status.errSticky = true
          ∧ t.errCmd = s.seq.cmd ∧ t.result = s.result))))
  ∧ ∀ (s t : State) (m : Move), s.applyMove m = .next t → m ≠ .sequencer → m ≠ .reset →
    t.result = s.result ∧ t.errCmd = s.errCmd

/-- R271: only a reset clears `ADC.ADON`, a timer's `CEN` or a timer's `READY`. -/
def Obligations.OnlyResetStopsAUnit : Prop :=
  ∀ (s t : State) (m : Move), s.applyMove m = .next t → m ≠ .reset →
    (s.adc.adon = true → t.adc.adon = true)
    ∧ ∀ i, ((s.timer i).cen = true → (t.timer i).cen = true) ∧ ((s.timer i).ready = true → (t.timer i).ready = true)

/-- R94, R104: a later write to `ARG` changes nothing of what the accepted command does, and a command without an operand
does not read the latched `ARG` either. -/
def Obligations.OnlyTheLatchedOperandIsRead : Prop :=
  (∀ (i : Instr) (s : State) (v : Word),
    exec i { s with arg := v } = mapNext (fun t => { t with arg := v }) (exec i s))
  ∧ ∀ (i : Instr) (s : State) (v : Word), readsOperand i = false →
    exec i { s with seq := { s.seq with arg := v } }
      = mapNext (fun t => { t with seq := { t.seq with arg := v } }) (exec i s)

/-! ## Progress (R291) -/

/-- R291: every command but the three that wait ends within five micro-steps. -/
def Obligations.OtherCommandsEndWithinFiveSteps : Prop :=
  ∀ (s : State) (i : Instr), BlockInv s → s.seq.mode = .run → decode s.seq.cmd = .ok i → waits i = false →
    ∃ k t, 1 ≤ k ∧ k ≤ 5 ∧ sequencerRun k s = .next t ∧ t.seq.mode = .idle ∧ t.status.done = true

/-- R291, R137: with a nonzero budget every command ends, whatever the converter does: among any moves without a reset,
`256 * (TIMEOUT + 2)` sequencer moves are enough. -/
def Obligations.BudgetBoundsEveryCommand : Prop :=
  ∀ (s : State) (ms : List Move), BlockInv s → s.seq.mode = .run → s.timeout ≠ 0#32 → (∀ m ∈ ms, m ≠ .reset) →
    256 * (s.timeout.toNat + 2) ≤ ms.count .sequencer →
    (∃ k t, k ≤ ms.length ∧ runMoves (ms.take k) s = .next t ∧ t.seq.mode = .idle)
    ∨ ∃ a n, runMoves ms s = .fault (.busError a n)

/-- R291, R297: in a fair run whose converter is live every command ends. -/
def Obligations.LiveConverterEndsEveryCommand : Prop :=
  ∀ (σ : Nat → Move) (tr : Nat → State), FairRun true σ tr → BlockInv (tr 0) →
    ∀ n, (tr n).seq.mode = .run → ∃ m, n ≤ m ∧ (tr m).seq.mode = .idle
end

