-- ==== Sys2Proof/Laws/Bits.lean ====
section
/-! SUPPORT. The bits of the words the register views are made of. -/

namespace Sys2Proof.Machine

theorem bitAt_getLsbD (b : Bool) {n : Nat} (i : Nat) (h : n < 32) : (bitAt b n).getLsbD i = (decide (i = n) && b) := by
  cases b
  · simp [bitAt]
  · by_cases hi : i = n
    · subst hi
      simp [bitAt, h]
    · simp only [bitAt, if_true, BitVec.getLsbD_shiftLeft, BitVec.getLsbD_one, hi, decide_false, Bool.false_and]
      by_cases h1 : i < n
      · simp [h1]
      · have h2 : i - n ≠ 0 := by omega
        simp [h2]

theorem bitAt_getElem (b : Bool) {n : Nat} (i : Nat) (h : n < 32) (hi : i < 32) :
    (bitAt b n)[i] = (decide (i = n) && b) := by
  rw [← BitVec.getLsbD_eq_getElem, bitAt_getLsbD b i h]

theorem fieldAt_getLsbD {n : Nat} (v : BitVec n) (k i : Nat) :
    (fieldAt v k).getLsbD i = (decide (i < 32) && decide (k ≤ i) && v.getLsbD (i - k)) := by
  by_cases h : i < 32 <;> by_cases hk : i < k
  · simp [fieldAt, h, hk]
  · have h1 : k ≤ i := by omega
    simp [fieldAt, h, hk, h1]
  · simp [fieldAt, h]
  · simp [fieldAt, h]

theorem fieldAt_getElem {n : Nat} (v : BitVec n) (k i : Nat) (h : i < 32) :
    (fieldAt v k)[i] = (decide (k ≤ i) && v.getLsbD (i - k)) := by
  rw [← BitVec.getLsbD_eq_getElem, fieldAt_getLsbD]
  simp [h]

end Sys2Proof.Machine
end

