-- ==== Sys2Proof/Laws/Numeric.lean ====
section
/-! SUPPORT. The numeric primitives of R14 and the commands' arithmetic: bounds, and the whole-number forms of the
rounded rationals. -/

namespace Sys2Proof.Machine

/-! ## Selectors (R105) -/

theorem timerOfSel_eq_some {t : Sel} {tid : TimerId} (h : timerOfSel t = some tid) :
    (t = 0#4 ∧ tid = .t0) ∨ (t = 1#4 ∧ tid = .t1) ∨ (t = 2#4 ∧ tid = .t2) := by
  unfold timerOfSel at h
  split at h
  · simp_all
  · split at h
    · simp_all
    · split at h <;> simp_all

theorem chanOfSel_eq_some {c : Sel} {cid : ChanId} (h : chanOfSel c = some cid) :
    (c = 1#4 ∧ cid = .c1) ∨ (c = 2#4 ∧ cid = .c2) ∨ (c = 3#4 ∧ cid = .c3) ∨ (c = 4#4 ∧ cid = .c4) := by
  unfold chanOfSel at h
  split at h
  · simp_all
  · split at h
    · simp_all
    · split at h
      · simp_all
      · split at h <;> simp_all

theorem actuatorOfSel_eq_some {id : Sel} {a : ActuatorId} (h : actuatorOfSel id = some a) :
    (id = 1#4 ∧ a = .one) ∨ (id = 2#4 ∧ a = .two) := by
  unfold actuatorOfSel at h
  split at h
  · simp_all
  · split at h <;> simp_all

/-! ## Rounding and clamping (R14) -/

/-- `rhu` of a fraction, in whole numbers. -/
theorem rhu_div (n d : Nat) (hd : 0 < d) : rhu ((n : Rat) / d) = (2 * n + d) / (2 * d) := by
  have hd' : (d : Rat) ≠ 0 := by positivity
  have h : (n : Rat) / d + 1 / 2 = ((2 * n + d : Nat) : Rat) / ((2 * d : Nat) : Rat) := by
    push_cast
    field_simp
  rw [rhu, h, Nat.floor_div_eq_div]

@[simp] theorem rhu_natCast (n : Nat) : rhu (n : Rat) = n := by
  have h := rhu_div n 1 Nat.one_pos
  simp only [Nat.cast_one, div_one] at h
  omega

@[simp] theorem rhu_zero : rhu 0 = 0 := by
  have h := rhu_natCast 0
  simpa using h

theorem rhu_mono {p q : Rat} (h : p ≤ q) : rhu p ≤ rhu q := Nat.floor_mono (by linarith)

/-- A value at most `n` rounds to at most `n`. -/
theorem rhu_le {q : Rat} {n : Nat} (h : q ≤ n) : rhu q ≤ n := by
  simpa using rhu_mono h

theorem clampRat_nonneg (q : Rat) {hi : Rat} (h : 0 ≤ hi) : 0 ≤ clampRat q 0 hi :=
  le_min (le_max_right q 0) h

theorem clampRat_le (q lo hi : Rat) : clampRat q lo hi ≤ hi := min_le_right _ _

/-- A clamped operand lies in its range, whatever the pattern. -/
theorem clampedOperand_mem (f : Word) {hi : Rat} (h : 0 ≤ hi) :
    0 ≤ clampedOperand f hi ∧ clampedOperand f hi ≤ hi := by
  unfold clampedOperand
  split
  · exact ⟨le_rfl, h⟩
  · split
    · exact ⟨le_rfl, h⟩
    · split
      · exact ⟨h, le_rfl⟩
      · exact ⟨clampRat_nonneg _ h, clampRat_le _ _ _⟩

/-! ## Compare values never exceed the period plus one (R176, R218, R232) -/

theorem pulse_le (f : Word) (arr : Nat) : pulse f arr ≤ arr + 1 := by
  have h := clampedOperand_mem f (hi := 100) (by norm_num)
  refine rhu_le ?_
  push_cast
  have hp : (0 : Rat) ≤ (arr : Rat) + 1 := by positivity
  rw [div_le_iff₀ (by norm_num)]
  nlinarith [mul_le_mul_of_nonneg_right h.2 hp]

theorem servoPulse_le (f : Word) (arr : Nat) : servoPulse f arr ≤ arr + 1 := by
  have h := clampedOperand_mem f (hi := 180) (by norm_num)
  refine rhu_le ?_
  push_cast
  have hp : (0 : Rat) ≤ (arr : Rat) + 1 := by positivity
  have hd : 5 / 2 + clampedOperand f 180 / 180 * 10 ≤ 100 := by linarith [h.2]
  rw [div_le_iff₀ (by norm_num)]
  nlinarith [mul_le_mul_of_nonneg_right hd hp]

theorem motorPulse_le {m : Nat} (arr : Nat) (h : m ≤ 100) : motorPulse m arr ≤ arr + 1 := by
  refine rhu_le ?_
  push_cast
  have hp : (0 : Rat) ≤ (arr : Rat) + 1 := by positivity
  have hm : (m : Rat) ≤ 100 := by exact_mod_cast h
  rw [div_le_iff₀ (by norm_num)]
  nlinarith [mul_le_mul_of_nonneg_right hm hp]

@[simp] theorem motorPulse_zero (arr : Nat) : motorPulse 0 arr = 0 := by simp [motorPulse]

/-- `MPULSE(m)` in whole numbers (R218). -/
theorem motorPulse_eq (m arr : Nat) : motorPulse m arr = (2 * (m * (arr + 1)) + 100) / 200 := by
  have h := rhu_div (m * (arr + 1)) 100 (by norm_num)
  push_cast at h
  exact h

/-! ## The motor encoder (R212) -/

/-- Both duties are at most 100 and at most one of them is not 0. -/
theorem encodeSpeed_bounds (db : Nat) (s : Int) :
    (encodeSpeed db s).1 ≤ 100 ∧ (encodeSpeed db s).2 ≤ 100
      ∧ ((encodeSpeed db s).1 = 0 ∨ (encodeSpeed db s).2 = 0) := by
  have h : (min (max s (-100)) 100).natAbs ≤ 100 := by omega
  simp only [encodeSpeed]
  generalize min (max s (-100)) 100 = v at h
  by_cases hm : v.natAbs ≤ db <;> by_cases hv : 0 ≤ v <;> simp [hm, hv, h]

/-! ## The frequency divider (R172, R173) -/

theorem periodOf_ok {bits f p : Nat} (h : periodOf bits f = .ok p) :
    0 < f ∧ f ≤ Config.tickHz ∧ p = Config.tickHz / f - 1 ∧ p ≤ 2 ^ bits - 2 := by
  unfold periodOf at h
  split at h
  · cases h
  · split at h
    · cases h
    · split at h
      · cases h
      · cases h
        omega

/-- A prescaler value of a valid clock fits its 16 bits (R10). -/
theorem pscVal_lt {p : Params} (t : TimerId) (h : clkHz p t / Config.tickHz - 1 ≤ 2 ^ Config.pscBits - 1) :
    pscVal p t < 2 ^ 16 := by
  unfold pscVal
  simp only [Config.pscBits] at h
  omega

/-! ## The accumulator (R140, R141) -/

/-- An add whose exact sum fits does not saturate. -/
theorem satAdd_toNat {acc : BitVec 20} {v : BitVec 12} (h : acc.toNat + v.toNat < 2 ^ 20) :
    (satAdd acc v).toNat = acc.toNat + v.toNat := by
  simp only [satAdd, Config.accBits, BitVec.toNat_ofNat]
  omega

end Sys2Proof.Machine
end

