-- ==== Sys2Proof/Laws/State.lean ====
section
/-! SUPPORT. One lemma per field of State per update, so that no proof unfolds a record update; the flag updates of
`STATUS` and `SEQ`; and reading a timer after replacing one. -/

namespace Sys2Proof.Machine

/-! ## The stored fields of `STATUS` -/

@[simp] theorem Status.completed_done (x : Status) : (x.completed).done = true := rfl
@[simp] theorem Status.completed_lastErr (x : Status) : (x.completed).lastErr = 0 := rfl
@[simp] theorem Status.completed_errSticky (x : Status) : (x.completed).errSticky = x.errSticky := rfl
@[simp] theorem Status.completed_ovr (x : Status) : (x.completed).ovr = x.ovr := rfl

@[simp] theorem Status.failed_done (x : Status) (e : ErrorCode) : (x.failed e).done = true := rfl
@[simp] theorem Status.failed_lastErr (x : Status) (e : ErrorCode) : (x.failed e).lastErr = e.code := rfl
@[simp] theorem Status.failed_errSticky (x : Status) (e : ErrorCode) : (x.failed e).errSticky = true := rfl
@[simp] theorem Status.failed_ovr (x : Status) (e : ErrorCode) : (x.failed e).ovr = x.ovr := rfl

@[simp] theorem Status.accepted_done (x : Status) : (x.accepted).done = false := rfl
@[simp] theorem Status.accepted_lastErr (x : Status) : (x.accepted).lastErr = x.lastErr := rfl
@[simp] theorem Status.accepted_errSticky (x : Status) : (x.accepted).errSticky = x.errSticky := rfl
@[simp] theorem Status.accepted_ovr (x : Status) : (x.accepted).ovr = x.ovr := rfl

@[simp] theorem Status.dropped_done (x : Status) : (x.dropped).done = x.done := rfl
@[simp] theorem Status.dropped_lastErr (x : Status) : (x.dropped).lastErr = x.lastErr := rfl
@[simp] theorem Status.dropped_errSticky (x : Status) : (x.dropped).errSticky = x.errSticky := rfl
@[simp] theorem Status.dropped_ovr (x : Status) : (x.dropped).ovr = true := rfl

@[simp] theorem Status.hostWrite_done (x : Status) (w : Word) : (x.hostWrite w).done = x.done := rfl
@[simp] theorem Status.hostWrite_lastErr (x : Status) (w : Word) : (x.hostWrite w).lastErr = x.lastErr := rfl
@[simp] theorem Status.hostWrite_errSticky (x : Status) (w : Word) : (x.hostWrite w).errSticky = (x.errSticky && !w.getLsbD 8) := rfl
@[simp] theorem Status.hostWrite_ovr (x : Status) (w : Word) : (x.hostWrite w).ovr = (x.ovr && !w.getLsbD 9) := rfl

/-! ## The sequencer at the end of a command -/

@[simp] theorem Seq.ended_mode (x : Seq) : (x.ended).mode = .idle := rfl
@[simp] theorem Seq.ended_cmd (x : Seq) : (x.ended).cmd = x.cmd := rfl
@[simp] theorem Seq.ended_arg (x : Seq) : (x.ended).arg = x.arg := rfl
@[simp] theorem Seq.ended_step (x : Seq) : (x.ended).step = none := rfl
@[simp] theorem Seq.ended_acc (x : Seq) : (x.ended).acc = x.acc := rfl
@[simp] theorem Seq.ended_k (x : Seq) : (x.ended).k = x.k := rfl
@[simp] theorem Seq.ended_polls (x : Seq) : (x.ended).polls = x.polls := rfl
@[simp] theorem Seq.ended_val (x : Seq) : (x.ended).val = x.val := rfl

/-! ## The updates of State -/

@[simp] theorem State.goto_arg (s : State) (l : MicroStep) : (s.goto l).arg = s.arg := rfl
@[simp] theorem State.goto_status (s : State) (l : MicroStep) : (s.goto l).status = s.status := rfl
@[simp] theorem State.goto_result (s : State) (l : MicroStep) : (s.goto l).result = s.result := rfl
@[simp] theorem State.goto_errCmd (s : State) (l : MicroStep) : (s.goto l).errCmd = s.errCmd := rfl
@[simp] theorem State.goto_timeout (s : State) (l : MicroStep) : (s.goto l).timeout = s.timeout := rfl
@[simp] theorem State.goto_deadband (s : State) (l : MicroStep) : (s.goto l).deadband = s.deadband := rfl
@[simp] theorem State.goto_seq (s : State) (l : MicroStep) : (s.goto l).seq = { s.seq with step := some l } := rfl
@[simp] theorem State.goto_adc (s : State) (l : MicroStep) : (s.goto l).adc = s.adc := rfl
@[simp] theorem State.goto_tim0 (s : State) (l : MicroStep) : (s.goto l).tim0 = s.tim0 := rfl
@[simp] theorem State.goto_tim1 (s : State) (l : MicroStep) : (s.goto l).tim1 = s.tim1 := rfl
@[simp] theorem State.goto_tim2 (s : State) (l : MicroStep) : (s.goto l).tim2 = s.tim2 := rfl
@[simp] theorem State.goto_pinLog (s : State) (l : MicroStep) : (s.goto l).pinLog = s.pinLog := rfl
@[simp] theorem State.goto_params (s : State) (l : MicroStep) : (s.goto l).params = s.params := rfl
@[simp] theorem State.goto_agenda (s : State) (l : MicroStep) : (s.goto l).agenda = s.agenda := rfl
@[simp] theorem State.goto_worldCount (s : State) (l : MicroStep) : (s.goto l).worldCount = s.worldCount := rfl
@[simp] theorem State.goto_hostRdata (s : State) (l : MicroStep) : (s.goto l).hostRdata = s.hostRdata := rfl

@[simp] theorem State.clearPolls_arg (s : State) : (s.clearPolls).arg = s.arg := rfl
@[simp] theorem State.clearPolls_status (s : State) : (s.clearPolls).status = s.status := rfl
@[simp] theorem State.clearPolls_result (s : State) : (s.clearPolls).result = s.result := rfl
@[simp] theorem State.clearPolls_errCmd (s : State) : (s.clearPolls).errCmd = s.errCmd := rfl
@[simp] theorem State.clearPolls_timeout (s : State) : (s.clearPolls).timeout = s.timeout := rfl
@[simp] theorem State.clearPolls_deadband (s : State) : (s.clearPolls).deadband = s.deadband := rfl
@[simp] theorem State.clearPolls_seq (s : State) : (s.clearPolls).seq = { s.seq with polls := 0 } := rfl
@[simp] theorem State.clearPolls_adc (s : State) : (s.clearPolls).adc = s.adc := rfl
@[simp] theorem State.clearPolls_tim0 (s : State) : (s.clearPolls).tim0 = s.tim0 := rfl
@[simp] theorem State.clearPolls_tim1 (s : State) : (s.clearPolls).tim1 = s.tim1 := rfl
@[simp] theorem State.clearPolls_tim2 (s : State) : (s.clearPolls).tim2 = s.tim2 := rfl
@[simp] theorem State.clearPolls_pinLog (s : State) : (s.clearPolls).pinLog = s.pinLog := rfl
@[simp] theorem State.clearPolls_params (s : State) : (s.clearPolls).params = s.params := rfl
@[simp] theorem State.clearPolls_agenda (s : State) : (s.clearPolls).agenda = s.agenda := rfl
@[simp] theorem State.clearPolls_worldCount (s : State) : (s.clearPolls).worldCount = s.worldCount := rfl
@[simp] theorem State.clearPolls_hostRdata (s : State) : (s.clearPolls).hostRdata = s.hostRdata := rfl

@[simp] theorem State.complete_arg (s : State) : (s.complete).arg = s.arg := rfl
@[simp] theorem State.complete_status (s : State) : (s.complete).status = s.status.completed := rfl
@[simp] theorem State.complete_result (s : State) : (s.complete).result = s.result := rfl
@[simp] theorem State.complete_errCmd (s : State) : (s.complete).errCmd = s.errCmd := rfl
@[simp] theorem State.complete_timeout (s : State) : (s.complete).timeout = s.timeout := rfl
@[simp] theorem State.complete_deadband (s : State) : (s.complete).deadband = s.deadband := rfl
@[simp] theorem State.complete_seq (s : State) : (s.complete).seq = s.seq.ended := rfl
@[simp] theorem State.complete_adc (s : State) : (s.complete).adc = s.adc := rfl
@[simp] theorem State.complete_tim0 (s : State) : (s.complete).tim0 = s.tim0 := rfl
@[simp] theorem State.complete_tim1 (s : State) : (s.complete).tim1 = s.tim1 := rfl
@[simp] theorem State.complete_tim2 (s : State) : (s.complete).tim2 = s.tim2 := rfl
@[simp] theorem State.complete_pinLog (s : State) : (s.complete).pinLog = s.pinLog := rfl
@[simp] theorem State.complete_params (s : State) : (s.complete).params = s.params := rfl
@[simp] theorem State.complete_agenda (s : State) : (s.complete).agenda = s.agenda := rfl
@[simp] theorem State.complete_worldCount (s : State) : (s.complete).worldCount = s.worldCount := rfl
@[simp] theorem State.complete_hostRdata (s : State) : (s.complete).hostRdata = s.hostRdata := rfl

@[simp] theorem State.raise_arg (s : State) (e : ErrorCode) : (s.raise e).arg = s.arg := rfl
@[simp] theorem State.raise_status (s : State) (e : ErrorCode) : (s.raise e).status = s.status.failed e := rfl
@[simp] theorem State.raise_result (s : State) (e : ErrorCode) : (s.raise e).result = s.result := rfl
@[simp] theorem State.raise_errCmd (s : State) (e : ErrorCode) : (s.raise e).errCmd = s.seq.cmd := rfl
@[simp] theorem State.raise_timeout (s : State) (e : ErrorCode) : (s.raise e).timeout = s.timeout := rfl
@[simp] theorem State.raise_deadband (s : State) (e : ErrorCode) : (s.raise e).deadband = s.deadband := rfl
@[simp] theorem State.raise_seq (s : State) (e : ErrorCode) : (s.raise e).seq = s.seq.ended := rfl
@[simp] theorem State.raise_adc (s : State) (e : ErrorCode) : (s.raise e).adc = s.adc := rfl
@[simp] theorem State.raise_tim0 (s : State) (e : ErrorCode) : (s.raise e).tim0 = s.tim0 := rfl
@[simp] theorem State.raise_tim1 (s : State) (e : ErrorCode) : (s.raise e).tim1 = s.tim1 := rfl
@[simp] theorem State.raise_tim2 (s : State) (e : ErrorCode) : (s.raise e).tim2 = s.tim2 := rfl
@[simp] theorem State.raise_pinLog (s : State) (e : ErrorCode) : (s.raise e).pinLog = s.pinLog := rfl
@[simp] theorem State.raise_params (s : State) (e : ErrorCode) : (s.raise e).params = s.params := rfl
@[simp] theorem State.raise_agenda (s : State) (e : ErrorCode) : (s.raise e).agenda = s.agenda := rfl
@[simp] theorem State.raise_worldCount (s : State) (e : ErrorCode) : (s.raise e).worldCount = s.worldCount := rfl
@[simp] theorem State.raise_hostRdata (s : State) (e : ErrorCode) : (s.raise e).hostRdata = s.hostRdata := rfl

@[simp] theorem State.accept_arg (s : State) (w : Word) : (s.accept w).arg = s.arg := rfl
@[simp] theorem State.accept_status (s : State) (w : Word) : (s.accept w).status = s.status.accepted := rfl
@[simp] theorem State.accept_result (s : State) (w : Word) : (s.accept w).result = s.result := rfl
@[simp] theorem State.accept_errCmd (s : State) (w : Word) : (s.accept w).errCmd = s.errCmd := rfl
@[simp] theorem State.accept_timeout (s : State) (w : Word) : (s.accept w).timeout = s.timeout := rfl
@[simp] theorem State.accept_deadband (s : State) (w : Word) : (s.accept w).deadband = s.deadband := rfl
@[simp] theorem State.accept_seq (s : State) (w : Word) : (s.accept w).seq = { s.seq with cmd := w, arg := s.arg, mode := .run, step := some .s1 } := rfl
@[simp] theorem State.accept_adc (s : State) (w : Word) : (s.accept w).adc = s.adc := rfl
@[simp] theorem State.accept_tim0 (s : State) (w : Word) : (s.accept w).tim0 = s.tim0 := rfl
@[simp] theorem State.accept_tim1 (s : State) (w : Word) : (s.accept w).tim1 = s.tim1 := rfl
@[simp] theorem State.accept_tim2 (s : State) (w : Word) : (s.accept w).tim2 = s.tim2 := rfl
@[simp] theorem State.accept_pinLog (s : State) (w : Word) : (s.accept w).pinLog = s.pinLog := rfl
@[simp] theorem State.accept_params (s : State) (w : Word) : (s.accept w).params = s.params := rfl
@[simp] theorem State.accept_agenda (s : State) (w : Word) : (s.accept w).agenda = s.agenda := rfl
@[simp] theorem State.accept_worldCount (s : State) (w : Word) : (s.accept w).worldCount = s.worldCount := rfl
@[simp] theorem State.accept_hostRdata (s : State) (w : Word) : (s.accept w).hostRdata = s.hostRdata := rfl

@[simp] theorem State.drop_arg (s : State) : (s.drop).arg = s.arg := rfl
@[simp] theorem State.drop_status (s : State) : (s.drop).status = s.status.dropped := rfl
@[simp] theorem State.drop_result (s : State) : (s.drop).result = s.result := rfl
@[simp] theorem State.drop_errCmd (s : State) : (s.drop).errCmd = s.errCmd := rfl
@[simp] theorem State.drop_timeout (s : State) : (s.drop).timeout = s.timeout := rfl
@[simp] theorem State.drop_deadband (s : State) : (s.drop).deadband = s.deadband := rfl
@[simp] theorem State.drop_seq (s : State) : (s.drop).seq = s.seq := rfl
@[simp] theorem State.drop_adc (s : State) : (s.drop).adc = s.adc := rfl
@[simp] theorem State.drop_tim0 (s : State) : (s.drop).tim0 = s.tim0 := rfl
@[simp] theorem State.drop_tim1 (s : State) : (s.drop).tim1 = s.tim1 := rfl
@[simp] theorem State.drop_tim2 (s : State) : (s.drop).tim2 = s.tim2 := rfl
@[simp] theorem State.drop_pinLog (s : State) : (s.drop).pinLog = s.pinLog := rfl
@[simp] theorem State.drop_params (s : State) : (s.drop).params = s.params := rfl
@[simp] theorem State.drop_agenda (s : State) : (s.drop).agenda = s.agenda := rfl
@[simp] theorem State.drop_worldCount (s : State) : (s.drop).worldCount = s.worldCount := rfl
@[simp] theorem State.drop_hostRdata (s : State) : (s.drop).hostRdata = s.hostRdata := rfl

@[simp] theorem State.acknowledge_arg (s : State) (w : Word) : (s.acknowledge w).arg = s.arg := rfl
@[simp] theorem State.acknowledge_status (s : State) (w : Word) : (s.acknowledge w).status = s.status.hostWrite w := rfl
@[simp] theorem State.acknowledge_result (s : State) (w : Word) : (s.acknowledge w).result = s.result := rfl
@[simp] theorem State.acknowledge_errCmd (s : State) (w : Word) : (s.acknowledge w).errCmd = s.errCmd := rfl
@[simp] theorem State.acknowledge_timeout (s : State) (w : Word) : (s.acknowledge w).timeout = s.timeout := rfl
@[simp] theorem State.acknowledge_deadband (s : State) (w : Word) : (s.acknowledge w).deadband = s.deadband := rfl
@[simp] theorem State.acknowledge_seq (s : State) (w : Word) : (s.acknowledge w).seq = s.seq := rfl
@[simp] theorem State.acknowledge_adc (s : State) (w : Word) : (s.acknowledge w).adc = s.adc := rfl
@[simp] theorem State.acknowledge_tim0 (s : State) (w : Word) : (s.acknowledge w).tim0 = s.tim0 := rfl
@[simp] theorem State.acknowledge_tim1 (s : State) (w : Word) : (s.acknowledge w).tim1 = s.tim1 := rfl
@[simp] theorem State.acknowledge_tim2 (s : State) (w : Word) : (s.acknowledge w).tim2 = s.tim2 := rfl
@[simp] theorem State.acknowledge_pinLog (s : State) (w : Word) : (s.acknowledge w).pinLog = s.pinLog := rfl
@[simp] theorem State.acknowledge_params (s : State) (w : Word) : (s.acknowledge w).params = s.params := rfl
@[simp] theorem State.acknowledge_agenda (s : State) (w : Word) : (s.acknowledge w).agenda = s.agenda := rfl
@[simp] theorem State.acknowledge_worldCount (s : State) (w : Word) : (s.acknowledge w).worldCount = s.worldCount := rfl
@[simp] theorem State.acknowledge_hostRdata (s : State) (w : Word) : (s.acknowledge w).hostRdata = s.hostRdata := rfl

@[simp] theorem State.startConversion_arg (s : State) (ch : Sel) : (s.startConversion ch).arg = s.arg := rfl
@[simp] theorem State.startConversion_status (s : State) (ch : Sel) : (s.startConversion ch).status = s.status := rfl
@[simp] theorem State.startConversion_result (s : State) (ch : Sel) : (s.startConversion ch).result = s.result := rfl
@[simp] theorem State.startConversion_errCmd (s : State) (ch : Sel) : (s.startConversion ch).errCmd = s.errCmd := rfl
@[simp] theorem State.startConversion_timeout (s : State) (ch : Sel) : (s.startConversion ch).timeout = s.timeout := rfl
@[simp] theorem State.startConversion_deadband (s : State) (ch : Sel) : (s.startConversion ch).deadband = s.deadband := rfl
@[simp] theorem State.startConversion_seq (s : State) (ch : Sel) : (s.startConversion ch).seq = { s.seq with polls := 0 } := rfl
@[simp] theorem State.startConversion_adc (s : State) (ch : Sel) : (s.startConversion ch).adc = { s.adc with chsel := ch, eoc := false, pend := true } := rfl
@[simp] theorem State.startConversion_tim0 (s : State) (ch : Sel) : (s.startConversion ch).tim0 = s.tim0 := rfl
@[simp] theorem State.startConversion_tim1 (s : State) (ch : Sel) : (s.startConversion ch).tim1 = s.tim1 := rfl
@[simp] theorem State.startConversion_tim2 (s : State) (ch : Sel) : (s.startConversion ch).tim2 = s.tim2 := rfl
@[simp] theorem State.startConversion_pinLog (s : State) (ch : Sel) : (s.startConversion ch).pinLog = s.pinLog := rfl
@[simp] theorem State.startConversion_params (s : State) (ch : Sel) : (s.startConversion ch).params = s.params := rfl
@[simp] theorem State.startConversion_agenda (s : State) (ch : Sel) : (s.startConversion ch).agenda = s.agenda := rfl
@[simp] theorem State.startConversion_worldCount (s : State) (ch : Sel) : (s.startConversion ch).worldCount = s.worldCount := rfl
@[simp] theorem State.startConversion_hostRdata (s : State) (ch : Sel) : (s.startConversion ch).hostRdata = s.hostRdata := rfl

@[simp] theorem State.takeReading_arg (s : State) : (s.takeReading).arg = s.arg := rfl
@[simp] theorem State.takeReading_status (s : State) : (s.takeReading).status = s.status := rfl
@[simp] theorem State.takeReading_result (s : State) : (s.takeReading).result = s.result := rfl
@[simp] theorem State.takeReading_errCmd (s : State) : (s.takeReading).errCmd = s.errCmd := rfl
@[simp] theorem State.takeReading_timeout (s : State) : (s.takeReading).timeout = s.timeout := rfl
@[simp] theorem State.takeReading_deadband (s : State) : (s.takeReading).deadband = s.deadband := rfl
@[simp] theorem State.takeReading_seq (s : State) : (s.takeReading).seq = { s.seq with val := s.adc.dr.setWidth 12 } := rfl
@[simp] theorem State.takeReading_adc (s : State) : (s.takeReading).adc = { s.adc with eoc := false } := rfl
@[simp] theorem State.takeReading_tim0 (s : State) : (s.takeReading).tim0 = s.tim0 := rfl
@[simp] theorem State.takeReading_tim1 (s : State) : (s.takeReading).tim1 = s.tim1 := rfl
@[simp] theorem State.takeReading_tim2 (s : State) : (s.takeReading).tim2 = s.tim2 := rfl
@[simp] theorem State.takeReading_pinLog (s : State) : (s.takeReading).pinLog = s.pinLog := rfl
@[simp] theorem State.takeReading_params (s : State) : (s.takeReading).params = s.params := rfl
@[simp] theorem State.takeReading_agenda (s : State) : (s.takeReading).agenda = s.agenda := rfl
@[simp] theorem State.takeReading_worldCount (s : State) : (s.takeReading).worldCount = s.worldCount := rfl
@[simp] theorem State.takeReading_hostRdata (s : State) : (s.takeReading).hostRdata = s.hostRdata := rfl

@[simp] theorem State.setResult_arg (s : State) (v : Word) : (s.setResult v).arg = s.arg := rfl
@[simp] theorem State.setResult_status (s : State) (v : Word) : (s.setResult v).status = s.status := rfl
@[simp] theorem State.setResult_result (s : State) (v : Word) : (s.setResult v).result = v := rfl
@[simp] theorem State.setResult_errCmd (s : State) (v : Word) : (s.setResult v).errCmd = s.errCmd := rfl
@[simp] theorem State.setResult_timeout (s : State) (v : Word) : (s.setResult v).timeout = s.timeout := rfl
@[simp] theorem State.setResult_deadband (s : State) (v : Word) : (s.setResult v).deadband = s.deadband := rfl
@[simp] theorem State.setResult_seq (s : State) (v : Word) : (s.setResult v).seq = s.seq := rfl
@[simp] theorem State.setResult_adc (s : State) (v : Word) : (s.setResult v).adc = s.adc := rfl
@[simp] theorem State.setResult_tim0 (s : State) (v : Word) : (s.setResult v).tim0 = s.tim0 := rfl
@[simp] theorem State.setResult_tim1 (s : State) (v : Word) : (s.setResult v).tim1 = s.tim1 := rfl
@[simp] theorem State.setResult_tim2 (s : State) (v : Word) : (s.setResult v).tim2 = s.tim2 := rfl
@[simp] theorem State.setResult_pinLog (s : State) (v : Word) : (s.setResult v).pinLog = s.pinLog := rfl
@[simp] theorem State.setResult_params (s : State) (v : Word) : (s.setResult v).params = s.params := rfl
@[simp] theorem State.setResult_agenda (s : State) (v : Word) : (s.setResult v).agenda = s.agenda := rfl
@[simp] theorem State.setResult_worldCount (s : State) (v : Word) : (s.setResult v).worldCount = s.worldCount := rfl
@[simp] theorem State.setResult_hostRdata (s : State) (v : Word) : (s.setResult v).hostRdata = s.hostRdata := rfl

@[simp] theorem State.emitPins_arg (s : State) (ps : List PinId) (m : PinMode) (af : Nat) : (s.emitPins ps m af).arg = s.arg := rfl
@[simp] theorem State.emitPins_status (s : State) (ps : List PinId) (m : PinMode) (af : Nat) : (s.emitPins ps m af).status = s.status := rfl
@[simp] theorem State.emitPins_result (s : State) (ps : List PinId) (m : PinMode) (af : Nat) : (s.emitPins ps m af).result = s.result := rfl
@[simp] theorem State.emitPins_errCmd (s : State) (ps : List PinId) (m : PinMode) (af : Nat) : (s.emitPins ps m af).errCmd = s.errCmd := rfl
@[simp] theorem State.emitPins_timeout (s : State) (ps : List PinId) (m : PinMode) (af : Nat) : (s.emitPins ps m af).timeout = s.timeout := rfl
@[simp] theorem State.emitPins_deadband (s : State) (ps : List PinId) (m : PinMode) (af : Nat) : (s.emitPins ps m af).deadband = s.deadband := rfl
@[simp] theorem State.emitPins_seq (s : State) (ps : List PinId) (m : PinMode) (af : Nat) : (s.emitPins ps m af).seq = s.seq := rfl
@[simp] theorem State.emitPins_adc (s : State) (ps : List PinId) (m : PinMode) (af : Nat) : (s.emitPins ps m af).adc = s.adc := rfl
@[simp] theorem State.emitPins_tim0 (s : State) (ps : List PinId) (m : PinMode) (af : Nat) : (s.emitPins ps m af).tim0 = s.tim0 := rfl
@[simp] theorem State.emitPins_tim1 (s : State) (ps : List PinId) (m : PinMode) (af : Nat) : (s.emitPins ps m af).tim1 = s.tim1 := rfl
@[simp] theorem State.emitPins_tim2 (s : State) (ps : List PinId) (m : PinMode) (af : Nat) : (s.emitPins ps m af).tim2 = s.tim2 := rfl
@[simp] theorem State.emitPins_pinLog (s : State) (ps : List PinId) (m : PinMode) (af : Nat) : (s.emitPins ps m af).pinLog = s.pinLog ++ ps.map fun p => ⟨p, m, af⟩ := rfl
@[simp] theorem State.emitPins_params (s : State) (ps : List PinId) (m : PinMode) (af : Nat) : (s.emitPins ps m af).params = s.params := rfl
@[simp] theorem State.emitPins_agenda (s : State) (ps : List PinId) (m : PinMode) (af : Nat) : (s.emitPins ps m af).agenda = s.agenda := rfl
@[simp] theorem State.emitPins_worldCount (s : State) (ps : List PinId) (m : PinMode) (af : Nat) : (s.emitPins ps m af).worldCount = s.worldCount := rfl
@[simp] theorem State.emitPins_hostRdata (s : State) (ps : List PinId) (m : PinMode) (af : Nat) : (s.emitPins ps m af).hostRdata = s.hostRdata := rfl

@[simp] theorem State.converterMove_arg (s : State) (e : ConverterEvent) : (s.converterMove e).arg = s.arg := rfl
@[simp] theorem State.converterMove_status (s : State) (e : ConverterEvent) : (s.converterMove e).status = s.status := rfl
@[simp] theorem State.converterMove_result (s : State) (e : ConverterEvent) : (s.converterMove e).result = s.result := rfl
@[simp] theorem State.converterMove_errCmd (s : State) (e : ConverterEvent) : (s.converterMove e).errCmd = s.errCmd := rfl
@[simp] theorem State.converterMove_timeout (s : State) (e : ConverterEvent) : (s.converterMove e).timeout = s.timeout := rfl
@[simp] theorem State.converterMove_deadband (s : State) (e : ConverterEvent) : (s.converterMove e).deadband = s.deadband := rfl
@[simp] theorem State.converterMove_seq (s : State) (e : ConverterEvent) : (s.converterMove e).seq = s.seq := rfl
@[simp] theorem State.converterMove_adc (s : State) (e : ConverterEvent) : (s.converterMove e).adc = s.adc.converterStep e := rfl
@[simp] theorem State.converterMove_tim0 (s : State) (e : ConverterEvent) : (s.converterMove e).tim0 = s.tim0 := rfl
@[simp] theorem State.converterMove_tim1 (s : State) (e : ConverterEvent) : (s.converterMove e).tim1 = s.tim1 := rfl
@[simp] theorem State.converterMove_tim2 (s : State) (e : ConverterEvent) : (s.converterMove e).tim2 = s.tim2 := rfl
@[simp] theorem State.converterMove_pinLog (s : State) (e : ConverterEvent) : (s.converterMove e).pinLog = s.pinLog := rfl
@[simp] theorem State.converterMove_params (s : State) (e : ConverterEvent) : (s.converterMove e).params = s.params := rfl
@[simp] theorem State.converterMove_agenda (s : State) (e : ConverterEvent) : (s.converterMove e).agenda = s.agenda := rfl
@[simp] theorem State.converterMove_worldCount (s : State) (e : ConverterEvent) : (s.converterMove e).worldCount = s.worldCount := rfl
@[simp] theorem State.converterMove_hostRdata (s : State) (e : ConverterEvent) : (s.converterMove e).hostRdata = s.hostRdata := rfl

/-! ## Timers by name -/

@[simp] theorem State.timer_setTimer (s : State) (t : TimerId) (x : Timer) : (s.setTimer t x).timer t = x := by
  cases t <;> rfl

theorem State.timer_setTimer_ne (s : State) {t t' : TimerId} (x : Timer) (h : t' ≠ t) :
    (s.setTimer t x).timer t' = s.timer t' := by
  cases t <;> cases t' <;> first | rfl | exact absurd rfl h

@[simp] theorem State.setTimer_timer (s : State) (t : TimerId) : s.setTimer t (s.timer t) = s := by
  cases t <;> rfl

@[simp] theorem State.setTimer_setTimer (s : State) (t : TimerId) (x y : Timer) :
    (s.setTimer t x).setTimer t y = s.setTimer t y := by
  cases t <;> rfl

@[simp] theorem State.timer_t0 (s : State) : s.timer .t0 = s.tim0 := rfl

@[simp] theorem State.timer_t1 (s : State) : s.timer .t1 = s.tim1 := rfl

@[simp] theorem State.timer_t2 (s : State) : s.timer .t2 = s.tim2 := rfl

/-! ## The updates of one timer leave the rest of State -/

@[simp] theorem State.setTimer_arg (s : State) (t : TimerId) (x : Timer) : (s.setTimer t x).arg = s.arg := by cases t <;> rfl
@[simp] theorem State.setTimer_status (s : State) (t : TimerId) (x : Timer) : (s.setTimer t x).status = s.status := by cases t <;> rfl
@[simp] theorem State.setTimer_result (s : State) (t : TimerId) (x : Timer) : (s.setTimer t x).result = s.result := by cases t <;> rfl
@[simp] theorem State.setTimer_errCmd (s : State) (t : TimerId) (x : Timer) : (s.setTimer t x).errCmd = s.errCmd := by cases t <;> rfl
@[simp] theorem State.setTimer_timeout (s : State) (t : TimerId) (x : Timer) : (s.setTimer t x).timeout = s.timeout := by cases t <;> rfl
@[simp] theorem State.setTimer_deadband (s : State) (t : TimerId) (x : Timer) : (s.setTimer t x).deadband = s.deadband := by cases t <;> rfl
@[simp] theorem State.setTimer_seq (s : State) (t : TimerId) (x : Timer) : (s.setTimer t x).seq = s.seq := by cases t <;> rfl
@[simp] theorem State.setTimer_adc (s : State) (t : TimerId) (x : Timer) : (s.setTimer t x).adc = s.adc := by cases t <;> rfl
@[simp] theorem State.setTimer_pinLog (s : State) (t : TimerId) (x : Timer) : (s.setTimer t x).pinLog = s.pinLog := by cases t <;> rfl
@[simp] theorem State.setTimer_params (s : State) (t : TimerId) (x : Timer) : (s.setTimer t x).params = s.params := by cases t <;> rfl
@[simp] theorem State.setTimer_agenda (s : State) (t : TimerId) (x : Timer) : (s.setTimer t x).agenda = s.agenda := by cases t <;> rfl
@[simp] theorem State.setTimer_worldCount (s : State) (t : TimerId) (x : Timer) : (s.setTimer t x).worldCount = s.worldCount := by cases t <;> rfl
@[simp] theorem State.setTimer_hostRdata (s : State) (t : TimerId) (x : Timer) : (s.setTimer t x).hostRdata = s.hostRdata := by cases t <;> rfl

@[simp] theorem State.writeCcr_arg (s : State) (t : TimerId) (c : ChanId) (v : Nat) : (s.writeCcr t c v).arg = s.arg := State.setTimer_arg s t _
@[simp] theorem State.writeCcr_status (s : State) (t : TimerId) (c : ChanId) (v : Nat) : (s.writeCcr t c v).status = s.status := State.setTimer_status s t _
@[simp] theorem State.writeCcr_result (s : State) (t : TimerId) (c : ChanId) (v : Nat) : (s.writeCcr t c v).result = s.result := State.setTimer_result s t _
@[simp] theorem State.writeCcr_errCmd (s : State) (t : TimerId) (c : ChanId) (v : Nat) : (s.writeCcr t c v).errCmd = s.errCmd := State.setTimer_errCmd s t _
@[simp] theorem State.writeCcr_timeout (s : State) (t : TimerId) (c : ChanId) (v : Nat) : (s.writeCcr t c v).timeout = s.timeout := State.setTimer_timeout s t _
@[simp] theorem State.writeCcr_deadband (s : State) (t : TimerId) (c : ChanId) (v : Nat) : (s.writeCcr t c v).deadband = s.deadband := State.setTimer_deadband s t _
@[simp] theorem State.writeCcr_seq (s : State) (t : TimerId) (c : ChanId) (v : Nat) : (s.writeCcr t c v).seq = s.seq := State.setTimer_seq s t _
@[simp] theorem State.writeCcr_adc (s : State) (t : TimerId) (c : ChanId) (v : Nat) : (s.writeCcr t c v).adc = s.adc := State.setTimer_adc s t _
@[simp] theorem State.writeCcr_pinLog (s : State) (t : TimerId) (c : ChanId) (v : Nat) : (s.writeCcr t c v).pinLog = s.pinLog := State.setTimer_pinLog s t _
@[simp] theorem State.writeCcr_params (s : State) (t : TimerId) (c : ChanId) (v : Nat) : (s.writeCcr t c v).params = s.params := State.setTimer_params s t _
@[simp] theorem State.writeCcr_agenda (s : State) (t : TimerId) (c : ChanId) (v : Nat) : (s.writeCcr t c v).agenda = s.agenda := State.setTimer_agenda s t _
@[simp] theorem State.writeCcr_worldCount (s : State) (t : TimerId) (c : ChanId) (v : Nat) : (s.writeCcr t c v).worldCount = s.worldCount := State.setTimer_worldCount s t _
@[simp] theorem State.writeCcr_hostRdata (s : State) (t : TimerId) (c : ChanId) (v : Nat) : (s.writeCcr t c v).hostRdata = s.hostRdata := State.setTimer_hostRdata s t _

@[simp] theorem State.setCce_arg (s : State) (t : TimerId) (c : ChanId) (b : Bool) : (s.setCce t c b).arg = s.arg := State.setTimer_arg s t _
@[simp] theorem State.setCce_status (s : State) (t : TimerId) (c : ChanId) (b : Bool) : (s.setCce t c b).status = s.status := State.setTimer_status s t _
@[simp] theorem State.setCce_result (s : State) (t : TimerId) (c : ChanId) (b : Bool) : (s.setCce t c b).result = s.result := State.setTimer_result s t _
@[simp] theorem State.setCce_errCmd (s : State) (t : TimerId) (c : ChanId) (b : Bool) : (s.setCce t c b).errCmd = s.errCmd := State.setTimer_errCmd s t _
@[simp] theorem State.setCce_timeout (s : State) (t : TimerId) (c : ChanId) (b : Bool) : (s.setCce t c b).timeout = s.timeout := State.setTimer_timeout s t _
@[simp] theorem State.setCce_deadband (s : State) (t : TimerId) (c : ChanId) (b : Bool) : (s.setCce t c b).deadband = s.deadband := State.setTimer_deadband s t _
@[simp] theorem State.setCce_seq (s : State) (t : TimerId) (c : ChanId) (b : Bool) : (s.setCce t c b).seq = s.seq := State.setTimer_seq s t _
@[simp] theorem State.setCce_adc (s : State) (t : TimerId) (c : ChanId) (b : Bool) : (s.setCce t c b).adc = s.adc := State.setTimer_adc s t _
@[simp] theorem State.setCce_pinLog (s : State) (t : TimerId) (c : ChanId) (b : Bool) : (s.setCce t c b).pinLog = s.pinLog := State.setTimer_pinLog s t _
@[simp] theorem State.setCce_params (s : State) (t : TimerId) (c : ChanId) (b : Bool) : (s.setCce t c b).params = s.params := State.setTimer_params s t _
@[simp] theorem State.setCce_agenda (s : State) (t : TimerId) (c : ChanId) (b : Bool) : (s.setCce t c b).agenda = s.agenda := State.setTimer_agenda s t _
@[simp] theorem State.setCce_worldCount (s : State) (t : TimerId) (c : ChanId) (b : Bool) : (s.setCce t c b).worldCount = s.worldCount := State.setTimer_worldCount s t _
@[simp] theorem State.setCce_hostRdata (s : State) (t : TimerId) (c : ChanId) (b : Bool) : (s.setCce t c b).hostRdata = s.hostRdata := State.setTimer_hostRdata s t _

@[simp] theorem State.configureTimer_arg (s : State) (t : TimerId) (p : Nat) : (s.configureTimer t p).arg = s.arg := State.setTimer_arg s t _
@[simp] theorem State.configureTimer_status (s : State) (t : TimerId) (p : Nat) : (s.configureTimer t p).status = s.status := State.setTimer_status s t _
@[simp] theorem State.configureTimer_result (s : State) (t : TimerId) (p : Nat) : (s.configureTimer t p).result = s.result := State.setTimer_result s t _
@[simp] theorem State.configureTimer_errCmd (s : State) (t : TimerId) (p : Nat) : (s.configureTimer t p).errCmd = s.errCmd := State.setTimer_errCmd s t _
@[simp] theorem State.configureTimer_timeout (s : State) (t : TimerId) (p : Nat) : (s.configureTimer t p).timeout = s.timeout := State.setTimer_timeout s t _
@[simp] theorem State.configureTimer_deadband (s : State) (t : TimerId) (p : Nat) : (s.configureTimer t p).deadband = s.deadband := State.setTimer_deadband s t _
@[simp] theorem State.configureTimer_seq (s : State) (t : TimerId) (p : Nat) : (s.configureTimer t p).seq = s.seq := State.setTimer_seq s t _
@[simp] theorem State.configureTimer_adc (s : State) (t : TimerId) (p : Nat) : (s.configureTimer t p).adc = s.adc := State.setTimer_adc s t _
@[simp] theorem State.configureTimer_pinLog (s : State) (t : TimerId) (p : Nat) : (s.configureTimer t p).pinLog = s.pinLog := State.setTimer_pinLog s t _
@[simp] theorem State.configureTimer_params (s : State) (t : TimerId) (p : Nat) : (s.configureTimer t p).params = s.params := State.setTimer_params s t _
@[simp] theorem State.configureTimer_agenda (s : State) (t : TimerId) (p : Nat) : (s.configureTimer t p).agenda = s.agenda := State.setTimer_agenda s t _
@[simp] theorem State.configureTimer_worldCount (s : State) (t : TimerId) (p : Nat) : (s.configureTimer t p).worldCount = s.worldCount := State.setTimer_worldCount s t _
@[simp] theorem State.configureTimer_hostRdata (s : State) (t : TimerId) (p : Nat) : (s.configureTimer t p).hostRdata = s.hostRdata := State.setTimer_hostRdata s t _

@[simp] theorem State.tickMove_arg (s : State) (t : TimerId) : (s.tickMove t).arg = s.arg := by unfold State.tickMove; split <;> simp
@[simp] theorem State.tickMove_status (s : State) (t : TimerId) : (s.tickMove t).status = s.status := by unfold State.tickMove; split <;> simp
@[simp] theorem State.tickMove_result (s : State) (t : TimerId) : (s.tickMove t).result = s.result := by unfold State.tickMove; split <;> simp
@[simp] theorem State.tickMove_errCmd (s : State) (t : TimerId) : (s.tickMove t).errCmd = s.errCmd := by unfold State.tickMove; split <;> simp
@[simp] theorem State.tickMove_timeout (s : State) (t : TimerId) : (s.tickMove t).timeout = s.timeout := by unfold State.tickMove; split <;> simp
@[simp] theorem State.tickMove_deadband (s : State) (t : TimerId) : (s.tickMove t).deadband = s.deadband := by unfold State.tickMove; split <;> simp
@[simp] theorem State.tickMove_seq (s : State) (t : TimerId) : (s.tickMove t).seq = s.seq := by unfold State.tickMove; split <;> simp
@[simp] theorem State.tickMove_adc (s : State) (t : TimerId) : (s.tickMove t).adc = s.adc := by unfold State.tickMove; split <;> simp
@[simp] theorem State.tickMove_pinLog (s : State) (t : TimerId) : (s.tickMove t).pinLog = s.pinLog := by unfold State.tickMove; split <;> simp
@[simp] theorem State.tickMove_params (s : State) (t : TimerId) : (s.tickMove t).params = s.params := by unfold State.tickMove; split <;> simp
@[simp] theorem State.tickMove_agenda (s : State) (t : TimerId) : (s.tickMove t).agenda = s.agenda := by unfold State.tickMove; split <;> simp
@[simp] theorem State.tickMove_worldCount (s : State) (t : TimerId) : (s.tickMove t).worldCount = s.worldCount := by unfold State.tickMove; split <;> simp
@[simp] theorem State.tickMove_hostRdata (s : State) (t : TimerId) : (s.tickMove t).hostRdata = s.hostRdata := by unfold State.tickMove; split <;> simp

@[simp] theorem State.writePair_arg (s : State) (a : ActuatorId) (f r : Nat) : (s.writePair a f r).arg = s.arg := rfl
@[simp] theorem State.writePair_status (s : State) (a : ActuatorId) (f r : Nat) : (s.writePair a f r).status = s.status := rfl
@[simp] theorem State.writePair_result (s : State) (a : ActuatorId) (f r : Nat) : (s.writePair a f r).result = s.result := rfl
@[simp] theorem State.writePair_errCmd (s : State) (a : ActuatorId) (f r : Nat) : (s.writePair a f r).errCmd = s.errCmd := rfl
@[simp] theorem State.writePair_timeout (s : State) (a : ActuatorId) (f r : Nat) : (s.writePair a f r).timeout = s.timeout := rfl
@[simp] theorem State.writePair_deadband (s : State) (a : ActuatorId) (f r : Nat) : (s.writePair a f r).deadband = s.deadband := rfl
@[simp] theorem State.writePair_seq (s : State) (a : ActuatorId) (f r : Nat) : (s.writePair a f r).seq = s.seq := rfl
@[simp] theorem State.writePair_adc (s : State) (a : ActuatorId) (f r : Nat) : (s.writePair a f r).adc = s.adc := rfl
@[simp] theorem State.writePair_pinLog (s : State) (a : ActuatorId) (f r : Nat) : (s.writePair a f r).pinLog = s.pinLog := rfl
@[simp] theorem State.writePair_params (s : State) (a : ActuatorId) (f r : Nat) : (s.writePair a f r).params = s.params := rfl
@[simp] theorem State.writePair_agenda (s : State) (a : ActuatorId) (f r : Nat) : (s.writePair a f r).agenda = s.agenda := rfl
@[simp] theorem State.writePair_worldCount (s : State) (a : ActuatorId) (f r : Nat) : (s.writePair a f r).worldCount = s.worldCount := rfl
@[simp] theorem State.writePair_hostRdata (s : State) (a : ActuatorId) (f r : Nat) : (s.writePair a f r).hostRdata = s.hostRdata := rfl

@[simp] theorem State.writeServo_arg (s : State) (a : ActuatorId) (g : Word) : (s.writeServo a g).arg = s.arg := rfl
@[simp] theorem State.writeServo_status (s : State) (a : ActuatorId) (g : Word) : (s.writeServo a g).status = s.status := rfl
@[simp] theorem State.writeServo_result (s : State) (a : ActuatorId) (g : Word) : (s.writeServo a g).result = s.result := rfl
@[simp] theorem State.writeServo_errCmd (s : State) (a : ActuatorId) (g : Word) : (s.writeServo a g).errCmd = s.errCmd := rfl
@[simp] theorem State.writeServo_timeout (s : State) (a : ActuatorId) (g : Word) : (s.writeServo a g).timeout = s.timeout := rfl
@[simp] theorem State.writeServo_deadband (s : State) (a : ActuatorId) (g : Word) : (s.writeServo a g).deadband = s.deadband := rfl
@[simp] theorem State.writeServo_seq (s : State) (a : ActuatorId) (g : Word) : (s.writeServo a g).seq = s.seq := rfl
@[simp] theorem State.writeServo_adc (s : State) (a : ActuatorId) (g : Word) : (s.writeServo a g).adc = s.adc := rfl
@[simp] theorem State.writeServo_pinLog (s : State) (a : ActuatorId) (g : Word) : (s.writeServo a g).pinLog = s.pinLog := rfl
@[simp] theorem State.writeServo_params (s : State) (a : ActuatorId) (g : Word) : (s.writeServo a g).params = s.params := rfl
@[simp] theorem State.writeServo_agenda (s : State) (a : ActuatorId) (g : Word) : (s.writeServo a g).agenda = s.agenda := rfl
@[simp] theorem State.writeServo_worldCount (s : State) (a : ActuatorId) (g : Word) : (s.writeServo a g).worldCount = s.worldCount := rfl
@[simp] theorem State.writeServo_hostRdata (s : State) (a : ActuatorId) (g : Word) : (s.writeServo a g).hostRdata = s.hostRdata := rfl

/-! ## The other updates leave every timer -/

@[simp] theorem State.timer_goto (s : State) (l : MicroStep) (i : TimerId) : (s.goto l).timer i = s.timer i := by cases i <;> rfl
@[simp] theorem State.timer_clearPolls (s : State) (i : TimerId) : (s.clearPolls).timer i = s.timer i := by cases i <;> rfl
@[simp] theorem State.timer_complete (s : State) (i : TimerId) : (s.complete).timer i = s.timer i := by cases i <;> rfl
@[simp] theorem State.timer_raise (s : State) (e : ErrorCode) (i : TimerId) : (s.raise e).timer i = s.timer i := by cases i <;> rfl
@[simp] theorem State.timer_accept (s : State) (w : Word) (i : TimerId) : (s.accept w).timer i = s.timer i := by cases i <;> rfl
@[simp] theorem State.timer_drop (s : State) (i : TimerId) : (s.drop).timer i = s.timer i := by cases i <;> rfl
@[simp] theorem State.timer_acknowledge (s : State) (w : Word) (i : TimerId) : (s.acknowledge w).timer i = s.timer i := by cases i <;> rfl
@[simp] theorem State.timer_startConversion (s : State) (ch : Sel) (i : TimerId) : (s.startConversion ch).timer i = s.timer i := by cases i <;> rfl
@[simp] theorem State.timer_takeReading (s : State) (i : TimerId) : (s.takeReading).timer i = s.timer i := by cases i <;> rfl
@[simp] theorem State.timer_setResult (s : State) (v : Word) (i : TimerId) : (s.setResult v).timer i = s.timer i := by cases i <;> rfl
@[simp] theorem State.timer_emitPins (s : State) (ps : List PinId) (m : PinMode) (af : Nat) (i : TimerId) : (s.emitPins ps m af).timer i = s.timer i := by cases i <;> rfl
@[simp] theorem State.timer_converterMove (s : State) (e : ConverterEvent) (i : TimerId) : (s.converterMove e).timer i = s.timer i := by cases i <;> rfl

end Sys2Proof.Machine
end

