-- ==== Sys2Proof/Laws/Timer.lean ====
section
/-! SUPPORT. What the timer operations of R170 to R183 do, field by field and channel by channel. -/

namespace Sys2Proof.Machine

/-! ## Channels by number -/

@[simp] theorem Timer.ch_c1 (t : Timer) : t.ch .c1 = t.ch1 := rfl

@[simp] theorem Timer.ch_c2 (t : Timer) : t.ch .c2 = t.ch2 := rfl

@[simp] theorem Timer.ch_c3 (t : Timer) : t.ch .c3 = t.ch3 := rfl

@[simp] theorem Timer.ch_c4 (t : Timer) : t.ch .c4 = t.ch4 := rfl

@[simp] theorem Timer.ch_setCh (t : Timer) (c : ChanId) (x : Channel) : (t.setCh c x).ch c = x := by
  cases c <;> rfl

theorem Timer.ch_setCh_ne (t : Timer) {c d : ChanId} (x : Channel) (h : d ≠ c) : (t.setCh c x).ch d = t.ch d := by
  cases c <;> cases d <;> first | rfl | exact absurd rfl h

theorem Timer.ch_setCh_ite (t : Timer) (c d : ChanId) (x : Channel) :
    (t.setCh c x).ch d = if d = c then x else t.ch d := by
  split
  · next h => rw [h, Timer.ch_setCh]
  · next h => exact Timer.ch_setCh_ne t x h

@[simp] theorem Timer.setCh_ch (t : Timer) (c : ChanId) : t.setCh c (t.ch c) = t := by cases c <;> rfl

@[simp] theorem Timer.setCh_setCh (t : Timer) (c : ChanId) (x y : Channel) :
    (t.setCh c x).setCh c y = t.setCh c y := by
  cases c <;> rfl

@[simp] theorem Timer.ch_mapCh (t : Timer) (f : Channel → Channel) (c : ChanId) :
    (t.mapCh f).ch c = f (t.ch c) := by
  cases c <;> rfl

/-- Two timers with the same fields and the same channels are equal. -/
theorem Timer.ext_ch {t u : Timer} (hcen : t.cen = u.cen) (harpe : t.arpe = u.arpe) (hready : t.ready = u.ready)
    (hpp : t.pscPre = u.pscPre) (hpa : t.pscAct = u.pscAct) (hap : t.arrPre = u.arrPre) (haa : t.arrAct = u.arrAct)
    (hcnt : t.cnt = u.cnt) (hpc : t.pscCnt = u.pscCnt) (hch : ∀ c, t.ch c = u.ch c) : t = u := by
  have h1 := hch .c1
  have h2 := hch .c2
  have h3 := hch .c3
  have h4 := hch .c4
  clear hch
  cases t
  cases u
  simp_all

/-! ## Fields of the channel and timer updates -/

@[simp] theorem Timer.setCh_cen (t : Timer) (c : ChanId) (x : Channel) : (t.setCh c x).cen = t.cen := by cases c <;> rfl
@[simp] theorem Timer.setCh_arpe (t : Timer) (c : ChanId) (x : Channel) : (t.setCh c x).arpe = t.arpe := by cases c <;> rfl
@[simp] theorem Timer.setCh_ready (t : Timer) (c : ChanId) (x : Channel) : (t.setCh c x).ready = t.ready := by cases c <;> rfl
@[simp] theorem Timer.setCh_pscPre (t : Timer) (c : ChanId) (x : Channel) : (t.setCh c x).pscPre = t.pscPre := by cases c <;> rfl
@[simp] theorem Timer.setCh_pscAct (t : Timer) (c : ChanId) (x : Channel) : (t.setCh c x).pscAct = t.pscAct := by cases c <;> rfl
@[simp] theorem Timer.setCh_arrPre (t : Timer) (c : ChanId) (x : Channel) : (t.setCh c x).arrPre = t.arrPre := by cases c <;> rfl
@[simp] theorem Timer.setCh_arrAct (t : Timer) (c : ChanId) (x : Channel) : (t.setCh c x).arrAct = t.arrAct := by cases c <;> rfl
@[simp] theorem Timer.setCh_cnt (t : Timer) (c : ChanId) (x : Channel) : (t.setCh c x).cnt = t.cnt := by cases c <;> rfl
@[simp] theorem Timer.setCh_pscCnt (t : Timer) (c : ChanId) (x : Channel) : (t.setCh c x).pscCnt = t.pscCnt := by cases c <;> rfl

@[simp] theorem Timer.mapCh_cen (t : Timer) (g : Channel → Channel) : (t.mapCh g).cen = t.cen := rfl
@[simp] theorem Timer.mapCh_arpe (t : Timer) (g : Channel → Channel) : (t.mapCh g).arpe = t.arpe := rfl
@[simp] theorem Timer.mapCh_ready (t : Timer) (g : Channel → Channel) : (t.mapCh g).ready = t.ready := rfl
@[simp] theorem Timer.mapCh_pscPre (t : Timer) (g : Channel → Channel) : (t.mapCh g).pscPre = t.pscPre := rfl
@[simp] theorem Timer.mapCh_pscAct (t : Timer) (g : Channel → Channel) : (t.mapCh g).pscAct = t.pscAct := rfl
@[simp] theorem Timer.mapCh_arrPre (t : Timer) (g : Channel → Channel) : (t.mapCh g).arrPre = t.arrPre := rfl
@[simp] theorem Timer.mapCh_arrAct (t : Timer) (g : Channel → Channel) : (t.mapCh g).arrAct = t.arrAct := rfl
@[simp] theorem Timer.mapCh_cnt (t : Timer) (g : Channel → Channel) : (t.mapCh g).cnt = t.cnt := rfl
@[simp] theorem Timer.mapCh_pscCnt (t : Timer) (g : Channel → Channel) : (t.mapCh g).pscCnt = t.pscCnt := rfl

@[simp] theorem Timer.update_cen (t : Timer) : (t.update).cen = t.cen := rfl
@[simp] theorem Timer.update_arpe (t : Timer) : (t.update).arpe = t.arpe := rfl
@[simp] theorem Timer.update_ready (t : Timer) : (t.update).ready = t.ready := rfl
@[simp] theorem Timer.update_pscPre (t : Timer) : (t.update).pscPre = t.pscPre := rfl
@[simp] theorem Timer.update_pscAct (t : Timer) : (t.update).pscAct = t.pscPre := rfl
@[simp] theorem Timer.update_arrPre (t : Timer) : (t.update).arrPre = t.arrPre := rfl
@[simp] theorem Timer.update_arrAct (t : Timer) : (t.update).arrAct = (if t.arpe then t.arrPre else t.arrAct) := rfl
@[simp] theorem Timer.update_cnt (t : Timer) : (t.update).cnt = t.cnt := rfl
@[simp] theorem Timer.update_pscCnt (t : Timer) : (t.update).pscCnt = t.pscCnt := rfl
@[simp] theorem Timer.ch_update (t : Timer) (c : ChanId) : t.update.ch c = (t.ch c).update := by
  cases c <;> rfl

@[simp] theorem Timer.forcedLoad_cen (t : Timer) : (t.forcedLoad).cen = true := rfl
@[simp] theorem Timer.forcedLoad_arpe (t : Timer) : (t.forcedLoad).arpe = t.arpe := rfl
@[simp] theorem Timer.forcedLoad_ready (t : Timer) : (t.forcedLoad).ready = t.ready := rfl
@[simp] theorem Timer.forcedLoad_pscPre (t : Timer) : (t.forcedLoad).pscPre = t.pscPre := rfl
@[simp] theorem Timer.forcedLoad_pscAct (t : Timer) : (t.forcedLoad).pscAct = t.pscPre := rfl
@[simp] theorem Timer.forcedLoad_arrPre (t : Timer) : (t.forcedLoad).arrPre = t.arrPre := rfl
@[simp] theorem Timer.forcedLoad_arrAct (t : Timer) : (t.forcedLoad).arrAct = t.arrPre := rfl
@[simp] theorem Timer.forcedLoad_cnt (t : Timer) : (t.forcedLoad).cnt = 0 := rfl
@[simp] theorem Timer.forcedLoad_pscCnt (t : Timer) : (t.forcedLoad).pscCnt = 0 := rfl
@[simp] theorem Timer.ch_forcedLoad (t : Timer) (c : ChanId) : t.forcedLoad.ch c = (t.ch c).load := by
  cases c <;> rfl

@[simp] theorem Timer.writeCcr_cen (t : Timer) (c : ChanId) (v : BitVec 32) : (t.writeCcr c v).cen = t.cen := Timer.setCh_cen t c _
@[simp] theorem Timer.writeCcr_arpe (t : Timer) (c : ChanId) (v : BitVec 32) : (t.writeCcr c v).arpe = t.arpe := Timer.setCh_arpe t c _
@[simp] theorem Timer.writeCcr_ready (t : Timer) (c : ChanId) (v : BitVec 32) : (t.writeCcr c v).ready = t.ready := Timer.setCh_ready t c _
@[simp] theorem Timer.writeCcr_pscPre (t : Timer) (c : ChanId) (v : BitVec 32) : (t.writeCcr c v).pscPre = t.pscPre := Timer.setCh_pscPre t c _
@[simp] theorem Timer.writeCcr_pscAct (t : Timer) (c : ChanId) (v : BitVec 32) : (t.writeCcr c v).pscAct = t.pscAct := Timer.setCh_pscAct t c _
@[simp] theorem Timer.writeCcr_arrPre (t : Timer) (c : ChanId) (v : BitVec 32) : (t.writeCcr c v).arrPre = t.arrPre := Timer.setCh_arrPre t c _
@[simp] theorem Timer.writeCcr_arrAct (t : Timer) (c : ChanId) (v : BitVec 32) : (t.writeCcr c v).arrAct = t.arrAct := Timer.setCh_arrAct t c _
@[simp] theorem Timer.writeCcr_cnt (t : Timer) (c : ChanId) (v : BitVec 32) : (t.writeCcr c v).cnt = t.cnt := Timer.setCh_cnt t c _
@[simp] theorem Timer.writeCcr_pscCnt (t : Timer) (c : ChanId) (v : BitVec 32) : (t.writeCcr c v).pscCnt = t.pscCnt := Timer.setCh_pscCnt t c _

@[simp] theorem Timer.setCce_cen (t : Timer) (c : ChanId) (b : Bool) : (t.setCce c b).cen = t.cen := Timer.setCh_cen t c _
@[simp] theorem Timer.setCce_arpe (t : Timer) (c : ChanId) (b : Bool) : (t.setCce c b).arpe = t.arpe := Timer.setCh_arpe t c _
@[simp] theorem Timer.setCce_ready (t : Timer) (c : ChanId) (b : Bool) : (t.setCce c b).ready = t.ready := Timer.setCh_ready t c _
@[simp] theorem Timer.setCce_pscPre (t : Timer) (c : ChanId) (b : Bool) : (t.setCce c b).pscPre = t.pscPre := Timer.setCh_pscPre t c _
@[simp] theorem Timer.setCce_pscAct (t : Timer) (c : ChanId) (b : Bool) : (t.setCce c b).pscAct = t.pscAct := Timer.setCh_pscAct t c _
@[simp] theorem Timer.setCce_arrPre (t : Timer) (c : ChanId) (b : Bool) : (t.setCce c b).arrPre = t.arrPre := Timer.setCh_arrPre t c _
@[simp] theorem Timer.setCce_arrAct (t : Timer) (c : ChanId) (b : Bool) : (t.setCce c b).arrAct = t.arrAct := Timer.setCh_arrAct t c _
@[simp] theorem Timer.setCce_cnt (t : Timer) (c : ChanId) (b : Bool) : (t.setCce c b).cnt = t.cnt := Timer.setCh_cnt t c _
@[simp] theorem Timer.setCce_pscCnt (t : Timer) (c : ChanId) (b : Bool) : (t.setCce c b).pscCnt = t.pscCnt := Timer.setCh_pscCnt t c _

theorem Timer.ch_writeCcr (t : Timer) (c d : ChanId) (v : BitVec 32) :
    (t.writeCcr c v).ch d = if d = c then (t.ch c).writeCcr v else t.ch d :=
  Timer.ch_setCh_ite t c d _

theorem Timer.ch_setCce (t : Timer) (c d : ChanId) (b : Bool) :
    (t.setCce c b).ch d = if d = c then { t.ch c with cce := b } else t.ch d :=
  Timer.ch_setCh_ite t c d _

/-! ## `PWM_INIT` on one timer (R180) -/

@[simp] theorem Timer.configure_arpe (t : Timer) (p : BitVec 16) (a : BitVec 32) : (t.configure p a).arpe = true := by
  unfold Timer.configure
  cases h : t.cen <;> simp [h]
@[simp] theorem Timer.configure_ready (t : Timer) (p : BitVec 16) (a : BitVec 32) : (t.configure p a).ready = true := rfl
@[simp] theorem Timer.configure_pscPre (t : Timer) (p : BitVec 16) (a : BitVec 32) : (t.configure p a).pscPre = p := by
  unfold Timer.configure
  cases h : t.cen <;> simp [h]
@[simp] theorem Timer.configure_arrPre (t : Timer) (p : BitVec 16) (a : BitVec 32) : (t.configure p a).arrPre = a := by
  unfold Timer.configure
  cases h : t.cen <;> simp [h]
@[simp] theorem Timer.configure_cen (t : Timer) (p : BitVec 16) (a : BitVec 32) : (t.configure p a).cen = true := by
  unfold Timer.configure
  cases h : t.cen <;> simp [h]

/-- On a running timer only the preloads and the mode bits change (R174). -/
theorem Timer.configure_running (t : Timer) (p : BitVec 16) (a : BitVec 32) (h : t.cen = true) :
    t.configure p a =
      { t.mapCh Channel.configure with pscPre := p, arrPre := a, arpe := true, ready := true } := by
  simp [Timer.configure, Timer.mapCh, h]

/-- On a stopped timer the forced load follows (R174). -/
theorem Timer.configure_stopped (t : Timer) (p : BitVec 16) (a : BitVec 32) (h : t.cen = false) :
    t.configure p a =
      { Timer.forcedLoad { t.mapCh Channel.configure with pscPre := p, arrPre := a, arpe := true } with
        ready := true } := by
  simp [Timer.configure, Timer.mapCh, h]

/-! ## Channel updates -/

@[simp] theorem Channel.update_buffered (x : Channel) (h : x.ocpe = true) :
    x.update = { x with ccrAct := x.ccrPre } := by
  simp [Channel.update, h]

@[simp] theorem Channel.writeCcr_buffered (x : Channel) (v : BitVec 32) (h : x.ocpe = true) :
    x.writeCcr v = { x with ccrPre := v } := by
  simp [Channel.writeCcr, h]

@[simp] theorem Channel.writeCcr_ccrPre (x : Channel) (v : BitVec 32) : (x.writeCcr v).ccrPre = v := by
  unfold Channel.writeCcr
  split <;> rfl

@[simp] theorem Channel.writeCcr_cce (x : Channel) (v : BitVec 32) : (x.writeCcr v).cce = x.cce := by
  unfold Channel.writeCcr
  split <;> rfl

@[simp] theorem Channel.writeCcr_pwm1 (x : Channel) (v : BitVec 32) : (x.writeCcr v).pwm1 = x.pwm1 := by
  unfold Channel.writeCcr
  split <;> rfl

@[simp] theorem Channel.writeCcr_ocpe (x : Channel) (v : BitVec 32) : (x.writeCcr v).ocpe = x.ocpe := by
  unfold Channel.writeCcr
  split <;> rfl

@[simp] theorem Channel.update_ccrPre (x : Channel) : x.update.ccrPre = x.ccrPre := by
  unfold Channel.update
  split <;> rfl

@[simp] theorem Channel.update_cce (x : Channel) : x.update.cce = x.cce := by
  unfold Channel.update
  split <;> rfl

@[simp] theorem Channel.update_pwm1 (x : Channel) : x.update.pwm1 = x.pwm1 := by
  unfold Channel.update
  split <;> rfl

@[simp] theorem Channel.update_ocpe (x : Channel) : x.update.ocpe = x.ocpe := by
  unfold Channel.update
  split <;> rfl

/-! ## The tick (R170) -/

/-- Everything one tick can do: count in the prescaler, count one intermediate tick, or wrap with an update event. -/
theorem Timer.tick_cases (t : Timer) :
    (t.pscCnt < t.pscAct ∧ t.tick = { t with pscCnt := t.pscCnt + 1 })
    ∨ (¬ t.pscCnt < t.pscAct ∧ t.cnt < t.arrAct ∧ t.tick = { t with pscCnt := 0, cnt := t.cnt + 1 })
    ∨ (¬ t.pscCnt < t.pscAct ∧ t.arrAct ≤ t.cnt ∧ t.tick = Timer.update { t with pscCnt := 0, cnt := 0 }) := by
  unfold Timer.tick
  split
  · next h => exact .inl ⟨h, rfl⟩
  · next h =>
    split
    · next h' => exact .inr (.inr ⟨h, h', rfl⟩)
    · next h' => exact .inr (.inl ⟨h, BitVec.not_le.mp h', rfl⟩)

@[simp] theorem Timer.tick_cen (t : Timer) : t.tick.cen = t.cen := by
  rcases t.tick_cases with ⟨_, h⟩ | ⟨_, _, h⟩ | ⟨_, _, h⟩ <;> simp [h]

@[simp] theorem Timer.tick_ready (t : Timer) : t.tick.ready = t.ready := by
  rcases t.tick_cases with ⟨_, h⟩ | ⟨_, _, h⟩ | ⟨_, _, h⟩ <;> simp [h]

end Sys2Proof.Machine
end

