-- ==== Sys2Proof/Laws/Ops.lean ====
section
/-! SUPPORT. For each shared operation of Ops.lean one lemma that says everything it can do. -/

namespace Sys2Proof.Machine

/-! ## Parameters (R10) -/

theorem paramsValid_clk {p : Params} (h : paramsValid p = true) (t : TimerId) :
    0 < clkHz p t ∧ clkHz p t % Config.tickHz = 0 ∧ clkHz p t / Config.tickHz - 1 ≤ 2 ^ Config.pscBits - 1 := by
  simp only [paramsValid, clkValid, Bool.and_eq_true, decide_eq_true_eq] at h
  obtain ⟨⟨⟨⟨h0, h1⟩, h2⟩, _⟩, _⟩ := h
  cases t
  · exact ⟨h0.1.1, h0.1.2, h0.2⟩
  · exact ⟨h1.1.1, h1.1.2, h1.2⟩
  · exact ⟨h2.1.1, h2.1.2, h2.2⟩

theorem paramsValid_bits {p : Params} (h : paramsValid p = true) : 15 ≤ p.timerBits ∧ p.timerBits ≤ 32 := by
  simp only [paramsValid, Bool.and_eq_true, decide_eq_true_eq] at h
  omega

@[simp] theorem paramsValid_default : paramsValid Config.defaultParams = true := by decide

/-! ## One timer at a time -/

theorem State.timer_writeCcr (s : State) (t i : TimerId) (c : ChanId) (v : Nat) :
    (s.writeCcr t c v).timer i = if i = t then (s.timer t).writeCcr c (BitVec.ofNat 32 v) else s.timer i := by
  split
  · next h => rw [h]; exact State.timer_setTimer s t _
  · next h => exact State.timer_setTimer_ne s _ h

theorem State.timer_setCce (s : State) (t i : TimerId) (c : ChanId) (b : Bool) :
    (s.setCce t c b).timer i = if i = t then (s.timer t).setCce c b else s.timer i := by
  split
  · next h => rw [h]; exact State.timer_setTimer s t _
  · next h => exact State.timer_setTimer_ne s _ h

theorem State.timer_configureTimer (s : State) (t i : TimerId) (p : Nat) :
    (s.configureTimer t p).timer i =
      if i = t then (s.timer t).configure (BitVec.ofNat 16 (pscVal s.params t)) (BitVec.ofNat 32 p)
      else s.timer i := by
  split
  · next h => rw [h]; exact State.timer_setTimer s t _
  · next h => exact State.timer_setTimer_ne s _ h

theorem State.timer_tickMove (s : State) (t i : TimerId) :
    (s.tickMove t).timer i = if i = t ∧ (s.timer t).cen = true then (s.timer t).tick else s.timer i := by
  unfold State.tickMove
  split
  · next h =>
    split
    · next h' => rw [h'.1]; exact State.timer_setTimer s t _
    · next h' => exact State.timer_setTimer_ne s _ fun e => h' ⟨e, h⟩
  · next h => simp [h]

/-! ## The checks of S1 (R257) -/

theorem State.checkChannel_ok {s : State} {t c : Sel} {r : TimerId × ChanId} (h : s.checkChannel t c = .ok r) :
    timerOfSel t = some r.1 ∧ chanOfSel c = some r.2 ∧ (s.timer r.1).ready = true := by
  unfold State.checkChannel at h
  split at h
  · cases h
  · next tid ht =>
    split at h
    · cases h
    · next cid hc =>
      split at h
      · next hr => cases h; exact ⟨ht, hc, hr⟩
      · cases h

theorem State.checkActuator_ok {s : State} {t : TimerId} {id : Sel} {a : ActuatorId}
    (h : s.checkActuator t id = .ok a) : actuatorOfSel id = some a ∧ (s.timer t).ready = true := by
  unfold State.checkActuator at h
  split at h
  · cases h
  · next ha =>
    split at h
    · next hr => cases h; exact ⟨ha, hr⟩
    · cases h

/-! ## The poll of a wait (R137) -/

/-- Everything one poll can do: go on, poll again for ever, run out of its budget, or count a failed poll. -/
theorem State.poll_cases (s : State) (cond : Bool) (onward : State) :
    (cond = true ∧ s.poll cond onward = onward)
    ∨ (cond = false ∧ s.timeout = 0#32 ∧ s.poll cond onward = s)
    ∨ (cond = false ∧ s.timeout ≠ 0#32 ∧ s.seq.polls + 1 = s.timeout
        ∧ s.poll cond onward =
          State.raise { s with
            seq := { s.seq with polls := s.seq.polls + 1 }
            adc := { s.adc with pend := false } } .hardwareTimeout)
    ∨ (cond = false ∧ s.timeout ≠ 0#32 ∧ s.seq.polls + 1 ≠ s.timeout
        ∧ s.poll cond onward = { s with seq := { s.seq with polls := s.seq.polls + 1 } }) := by
  unfold State.poll
  cases cond
  · by_cases h0 : s.timeout = 0#32
    · simp [h0]
    · by_cases h1 : s.seq.polls + 1 = s.timeout
      · exact .inr (.inr (.inl ⟨rfl, h0, h1, by simp only [if_neg h0, if_pos h1, Bool.false_eq_true, if_false]⟩))
      · exact .inr (.inr (.inr ⟨rfl, h0, h1, by simp only [if_neg h0, if_neg h1, Bool.false_eq_true, if_false]⟩))
  · simp

/-! ## The end of a sample (R139) -/

/-- What a successful poll of `ADC_AVG` leaves in the sequencer and the ADC. -/
theorem State.accumulate_seq (s : State) (times : Byte) :
    (s.accumulate times).seq =
      { s.seq with
        val := s.adc.dr.setWidth 12
        acc := satAdd s.seq.acc (s.adc.dr.setWidth 12)
        k := s.seq.k + 1
        step := some (if s.seq.k.toNat + 1 < times.toNat then .s3 else .s5) } := rfl

@[simp] theorem State.accumulate_adc (s : State) (times : Byte) :
    (s.accumulate times).adc = { s.adc with eoc := false } := rfl

@[simp] theorem State.timer_accumulate (s : State) (times : Byte) (t : TimerId) :
    (s.accumulate times).timer t = s.timer t := by
  cases t <;> rfl

/-! ## The converter (R44) -/

/-- Everything one converter step can do: nothing while it is not enabled, else K1, K2 or K3. -/
theorem Adc.converterStep_cases (a : Adc) (e : ConverterEvent) :
    a.converterStep e = a
    ∨ (a.adon = true ∧ a.rstcal = true ∧ e = .k1 ∧ a.converterStep e = { a with rstcal := false })
    ∨ (a.adon = true ∧ a.cal = true ∧ e = .k2 ∧ a.converterStep e = { a with cal := false })
    ∨ (a.adon = true ∧ a.pend = true
        ∧ ∃ v, e = .k3 v ∧ a.converterStep e = { a with dr := v.setWidth 16, eoc := true, pend := false }) := by
  cases e with
  | k1 => by_cases h : a.adon = true <;> by_cases h' : a.rstcal = true <;> simp [Adc.converterStep, h, h']
  | k2 => by_cases h : a.adon = true <;> by_cases h' : a.cal = true <;> simp [Adc.converterStep, h, h']
  | k3 v => by_cases h : a.adon = true <;> by_cases h' : a.pend = true <;> simp [Adc.converterStep, h, h']

end Sys2Proof.Machine
end

