-- ==== Sys2Proof/Laws/Moves.lean ====
section
/-! SUPPORT. What a host access, a move and a step can do, said once: the inversions from which every claim about all
steps is derived. -/

namespace Sys2Proof.Machine

/-! ## The window (R81, R82) -/

/-- An offset of the window is its own offset. -/
theorem windowOffset_base {off : Nat} (h : off < 256) : windowOffset (Config.aspaBase + off) = some off := by
  unfold windowOffset
  rw [if_pos ⟨Nat.le_add_right _ _, by omega⟩]
  simp

theorem windowOffset_some {a off : Nat} (h : windowOffset a = some off) : a = Config.aspaBase + off ∧ off < 256 := by
  unfold windowOffset at h
  split at h
  · cases h; omega
  · cases h

theorem wordAccess_iff (off n : Nat) : wordAccess off n = true ↔ n = 4 ∧ off % 4 = 0 := by simp [wordAccess]

/-- A word-aligned 32-bit read inside the window (R87). -/
theorem State.memRead_word (s : State) {off : Nat} (h : off < 256) (ha : off % 4 = 0) :
    s.memRead (Config.aspaBase + off) 4 = .done (s.readReg (slotReg (off / 4))) := by
  simp [State.memRead, windowOffset_base h, wordAccess, ha]

/-- A word-aligned 32-bit write inside the window (R88). -/
theorem State.memWrite_word (s : State) {off : Nat} (w : Word) (h : off < 256) (ha : off % 4 = 0) :
    s.memWrite (Config.aspaBase + off) 4 w = .done (s.writeReg w (slotReg (off / 4))) := by
  simp [State.memWrite, windowOffset_base h, wordAccess, ha]

/-- Everything a register write can do (R85): start a command, drop one, store the operand, clear sticky bits, or
nothing. -/
theorem State.writeReg_cases (s : State) (w : Word) (r : Reg) :
    (s.seq.mode = .idle ∧ s.writeReg w r = s.accept w)
    ∨ (s.seq.mode = .run ∧ s.writeReg w r = s.drop)
    ∨ s.writeReg w r = { s with arg := w }
    ∨ s.writeReg w r = s.acknowledge w
    ∨ s.writeReg w r = s := by
  cases r with
  | cmd =>
    cases h : s.seq.mode
    · exact .inl ⟨rfl, by simp [State.writeReg, State.cmdWrite, h]⟩
    · exact .inr (.inl ⟨rfl, by simp [State.writeReg, State.cmdWrite, h]⟩)
  | arg => exact .inr (.inr (.inl rfl))
  | status => exact .inr (.inr (.inr (.inl rfl)))
  | _ => exact .inr (.inr (.inr (.inr rfl)))

/-! ## Host accesses -/

/-- Everything a host access can do when it answers a next state: hand over read data, write a register, or concern
another device. -/
theorem State.hostStep_next {s t : State} {a : HostAccess} (h : s.hostStep a = .next t) :
    t = s ∨ (∃ v, t = { s with hostRdata := v }) ∨ ∃ w r, t = s.writeReg w r := by
  cases a with
  | read a n =>
    simp only [State.hostStep, State.memRead] at h
    split at h
    · cases h; exact .inl rfl
    · cases h
    · cases h; exact .inr (.inl ⟨_, rfl⟩)
  | write a n w =>
    simp only [State.hostStep, State.memWrite] at h
    cases ho : windowOffset a with
    | none => simp only [ho] at h; cases h; exact .inl rfl
    | some off =>
      simp only [ho] at h
      cases hw : wordAccess off n
      · simp [hw] at h
      · simp only [hw, if_true] at h
        cases h
        exact .inr (.inr ⟨w, _, rfl⟩)

/-- A host access that stops is a bus error (R82). -/
theorem State.hostStep_fault {s : State} {a : HostAccess} {f : Fault} (h : s.hostStep a = .fault f) :
    ∃ addr n, f = .busError addr n := by
  cases a <;> simp only [State.hostStep] at h <;> split at h <;> cases h <;> exact ⟨_, _, rfl⟩

theorem State.hostStep_not_refused (s : State) (a : HostAccess) (r : Refusal) : s.hostStep a ≠ .refused r := by
  intro h
  cases a <;> simp only [State.hostStep] at h <;> split at h <;> cases h

/-- A word-aligned 32-bit read of the host inside the window, as a move (R87). -/
theorem State.applyMove_readWord (s : State) {off : Nat} (h : off < 256) (ha : off % 4 = 0) :
    s.applyMove (.host (.read (Config.aspaBase + off) 4))
      = .next { s with hostRdata := s.readReg (slotReg (off / 4)) } := by
  simp [State.applyMove, State.hostStep, s.memRead_word h ha]

/-- A word-aligned 32-bit write of the host inside the window, as a move (R88). -/
theorem State.applyMove_writeWord (s : State) {off : Nat} (w : Word) (h : off < 256) (ha : off % 4 = 0) :
    s.applyMove (.host (.write (Config.aspaBase + off) 4 w)) = .next (s.writeReg w (slotReg (off / 4))) := by
  simp [State.applyMove, State.hostStep, s.memWrite_word w h ha]

/-! ## Steps -/

/-- The state in which the next move is taken differs from the state in the model's own fields alone. -/
theorem State.nextMove_snd (s : State) :
    ∃ ag wc, s.nextMove.2 = { s with agenda := ag, worldCount := wc } := by
  unfold State.nextMove
  split
  · exact ⟨_, s.worldCount, rfl⟩
  · next h => exact ⟨s.agenda, _, rfl⟩

theorem State.nextMove_cons {s : State} {m : Move} {rest : List Move} (h : s.agenda = m :: rest) :
    s.nextMove = (m, { s with agenda := rest }) := by
  simp [State.nextMove, h]

/-- A step that answers a next state takes one move under a valid parameter set. -/
theorem step_next {s t : State} (h : step s = .next t) :
    paramsValid s.params = true ∧ s.nextMove.2.applyMove s.nextMove.1 = .next t := by
  unfold step State.machineStep at h
  split at h
  · next hp => exact ⟨hp, h⟩
  · cases h

/-- Under a valid parameter set a step is its next move. -/
theorem step_eq_applyMove {s : State} (h : paramsValid s.params = true) :
    step s = s.nextMove.2.applyMove s.nextMove.1 := by
  simp [step, State.machineStep, h]

/-- A running sequencer's step runs the command it holds. -/
theorem State.sequencerStep_run {s : State} {i : Instr} (hm : s.seq.mode = .run) (hd : decode s.seq.cmd = .ok i) :
    s.sequencerStep = exec i s := by
  simp [State.sequencerStep, hm, hd]

theorem State.sequencerStep_idle {s : State} (hm : s.seq.mode = .idle) : s.sequencerStep = .next s := by
  simp [State.sequencerStep, hm]

/-- Everything a sequencer step can do: nothing while idle, the meaning of the command, or the rejection of an illegal
word. -/
theorem State.sequencerStep_next {s t : State} (h : s.sequencerStep = .next t) :
    (s.seq.mode = .idle ∧ t = s)
    ∨ (s.seq.mode = .run ∧ ∃ i, decode s.seq.cmd = .ok i ∧ exec i s = .next t)
    ∨ (s.seq.mode = .run ∧ (∃ e, decode s.seq.cmd = .error e) ∧ s.seq.step = some .s1
        ∧ t = s.raise .illegalCommand) := by
  unfold State.sequencerStep at h
  split at h
  · next hm => cases h; exact .inl ⟨hm, rfl⟩
  · next hm =>
    split at h
    · next i hd => exact .inr (.inl ⟨hm, i, hd, h⟩)
    · next e hd =>
      unfold State.rejectIllegal at h
      split at h
      · next hs => cases h; exact .inr (.inr ⟨hm, ⟨e, hd⟩, hs, rfl⟩)
      · cases h

end Sys2Proof.Machine
end

