-- ==== Sys2Proof/Laws/Exec.lean ====
section
/-! SUPPORT. Everything one micro-step of a command can do to the state, said once: the shape of the next state. -/

namespace Sys2Proof.Machine

/-- The commands that write timer `t` (R180 to R186, R211 to R214, R231, R233). -/
def writesTimer (i : Instr) (t : TimerId) : Prop :=
  (∃ x : Sel, x.toNat = timerNum t ∧ (i = .pwmInit x ∨ ∃ c, i = .pwmSetDuty x c ∨ i = .pwmStart x c ∨ i = .pwmStop x c))
    ∨ (t = .t1 ∧ (i = .motorInit ∨ ∃ id, i = .motorSetSpeed id ∨ i = .motorStop id))
    ∨ (t = .t2 ∧ (i = .servoInit ∨ ∃ id, i = .servoSetAngle id))

/-- The commands that return a value (R37). -/
def returnsValue (i : Instr) : Prop := i = .adcToVolt ∨ (∃ ch, i = .adcSample ch) ∨ ∃ ch n, i = .adcAvg ch n

/-- The next states a micro-step of command `i` can answer in state `s`. -/
inductive ExecShape (i : Instr) (s : State) : State → Prop
  /-- Only the micro-step changes: checks passed, or the settle step. -/
  | goOn (l : MicroStep) : ExecShape i s (s.goto l)
  /-- The command ends with an error of its own checks, in S1. -/
  | raised (e : ErrorCode) : s.seq.step = some .s1 → ExecShape i s (s.raise e)
  /-- `ADC_INIT` configures the converter. -/
  | configured (a : Adc) (l : MicroStep) : i = .adcInit → ExecShape i s (State.goto { s with adc := a } l)
  /-- A calibration or a conversion starts, with the poll counter cleared. -/
  | started (a : Adc) (l : MicroStep) :
      waits i = true → ExecShape i s (State.goto { s with adc := a, seq := { s.seq with polls := 0 } } l)
  /-- `ADC_INIT` completes. -/
  | adcReady (a : Adc) : i = .adcInit → ExecShape i s (State.complete { s with adc := a })
  /-- Pin requests are sent. -/
  | pins (ps : List PinId) (md : PinMode) (af : Nat) (l : MicroStep) :
      i = .adcInit ∨ i = .motorInit ∨ i = .servoInit → ExecShape i s ((s.emitPins ps md af).goto l)
  /-- A poll without a budget fails. -/
  | stay : waits i = true → ExecShape i s s
  /-- A poll within its budget fails. -/
  | counted :
      waits i = true → ExecShape i s { s with seq := { s.seq with polls := s.seq.polls + 1 } }
  /-- The budget runs out. -/
  | timedOut :
      waits i = true →
      ExecShape i s
        (State.raise { s with
          seq := { s.seq with polls := s.seq.polls + 1 }
          adc := { s.adc with pend := false } } .hardwareTimeout)
  /-- `ADC_SAMPLE` takes its reading. -/
  | taken (l : MicroStep) : (∃ ch, i = .adcSample ch) → ExecShape i s (s.takeReading.goto l)
  /-- `ADC_AVG` takes and accumulates a reading. -/
  | accumulated (n : Byte) : (∃ ch, i = .adcAvg ch n) → ExecShape i s (s.accumulate n)
  /-- `ADC_AVG` clears its accumulator. -/
  | cleared (l : MicroStep) :
      (∃ ch n, i = .adcAvg ch n) → ExecShape i s (State.goto { s with seq := { s.seq with acc := 0, k := 0 } } l)
  /-- A command that returns a value completes. -/
  | returned (v : Word) : returnsValue i → ExecShape i s (s.setResult v).complete
  /-- `ADC_SET_TIMEOUT` completes. -/
  | budget (v : Word) : i = .adcSetTimeout → ExecShape i s (State.complete { s with timeout := v })
  /-- `MOTOR_SET_DEADBAND` completes. -/
  | deadband (v : BitVec 7) : i = .motorSetDeadband → ExecShape i s (State.complete { s with deadband := v })
  /-- A middle step of `MOTOR_INIT` or `SERVO_INIT` writes its timer. -/
  | timerStep (t : TimerId) (x : Timer) (l : MicroStep) :
      (t = .t1 ∧ i = .motorInit) ∨ (t = .t2 ∧ i = .servoInit) → ExecShape i s ((s.setTimer t x).goto l)
  /-- A command that writes a timer completes. -/
  | timerDone (t : TimerId) (x : Timer) : writesTimer i t → ExecShape i s (s.setTimer t x).complete

theorem timerNum_of_timerOfSel {t : Sel} {tid : TimerId} (h : timerOfSel t = some tid) : t.toNat = timerNum tid := by
  rcases timerOfSel_eq_some h with ⟨rfl, rfl⟩ | ⟨rfl, rfl⟩ | ⟨rfl, rfl⟩ <;> rfl

theorem ExecShape.poll {i : Instr} {s o : State} (c : Bool) (hw : waits i = true) (ho : ExecShape i s o) :
    ExecShape i s (s.poll c o) := by
  rcases State.poll_cases s c o with ⟨_, h⟩ | ⟨_, _, h⟩ | ⟨_, _, _, h⟩ | ⟨_, _, _, h⟩ <;> rw [h]
  · exact ho
  · exact .stay hw
  · exact .timedOut hw
  · exact .counted hw

theorem execAdcInit_shape {s t : State} (h : execAdcInit s = .next t) : ExecShape .adcInit s t := by
  unfold execAdcInit at h
  split at h <;> cases h
  · exact .configured _ _ rfl
  · exact .pins _ _ _ _ (.inl rfl)
  · exact .configured _ _ rfl
  · exact .configured _ _ rfl
  · exact .goOn _
  · exact .started _ _ rfl
  · exact .poll _ rfl (.goOn _)
  · exact .started _ _ rfl
  · exact .poll _ rfl (.goOn _)
  · exact .adcReady _ rfl

theorem execAdcSample_shape {ch : Sel} {s t : State} (h : execAdcSample ch s = .next t) :
    ExecShape (.adcSample ch) s t := by
  unfold execAdcSample at h
  repeat' split at h
  all_goals cases h
  · exact .raised _ ‹_›
  · exact .raised _ ‹_›
  · exact .goOn _
  · exact .started _ _ rfl
  · exact .poll _ rfl (.taken _ ⟨_, rfl⟩)
  · exact .returned _ (.inr (.inl ⟨_, rfl⟩))

theorem execAdcAvg_shape {ch : Sel} {n : Byte} {s t : State} (h : execAdcAvg ch n s = .next t) :
    ExecShape (.adcAvg ch n) s t := by
  unfold execAdcAvg at h
  repeat' split at h
  all_goals cases h
  · exact .raised _ ‹_›
  · exact .raised _ ‹_›
  · exact .raised _ ‹_›
  · exact .goOn _
  · exact .cleared _ ⟨_, _, rfl⟩
  · exact .started _ _ rfl
  · exact .poll _ rfl (.accumulated _ ⟨_, rfl⟩)
  · exact .returned _ (.inr (.inr ⟨_, _, rfl⟩))

theorem execAdcToVolt_shape {s t : State} (h : execAdcToVolt s = .next t) : ExecShape .adcToVolt s t := by
  unfold execAdcToVolt at h
  repeat' split at h
  all_goals cases h
  · exact .raised _ ‹_›
  · exact .returned _ (.inl rfl)

theorem execAdcSetTimeout_shape {s t : State} (h : execAdcSetTimeout s = .next t) :
    ExecShape .adcSetTimeout s t := by
  unfold execAdcSetTimeout at h
  split at h <;> cases h
  exact .budget _ rfl

theorem execPwmInit_shape {c : Sel} {s t : State} (h : execPwmInit c s = .next t) : ExecShape (.pwmInit c) s t := by
  unfold execPwmInit at h
  repeat' split at h
  all_goals cases h
  · exact .raised _ ‹_›
  · exact .raised _ ‹_›
  · exact .goOn _
  · next tid p ht _ => exact .timerDone tid _ (.inl ⟨c, timerNum_of_timerOfSel ht, .inl rfl⟩)

theorem execPwmSetDuty_shape {x c : Sel} {s t : State} (h : execPwmSetDuty x c s = .next t) :
    ExecShape (.pwmSetDuty x c) s t := by
  unfold execPwmSetDuty at h
  repeat' split at h
  all_goals cases h
  · exact .raised _ ‹_›
  · next tid cid hc =>
    exact .timerDone tid _ (.inl ⟨x, timerNum_of_timerOfSel (State.checkChannel_ok hc).1, .inr ⟨c, .inl rfl⟩⟩)

theorem execPwmStart_shape {x c : Sel} {s t : State} (h : execPwmStart x c s = .next t) :
    ExecShape (.pwmStart x c) s t := by
  unfold execPwmStart at h
  repeat' split at h
  all_goals cases h
  · exact .raised _ ‹_›
  · next tid cid hc =>
    exact .timerDone tid _ (.inl ⟨x, timerNum_of_timerOfSel (State.checkChannel_ok hc).1, .inr ⟨c, .inr (.inl rfl)⟩⟩)

theorem execPwmStop_shape {x c : Sel} {s t : State} (h : execPwmStop x c s = .next t) :
    ExecShape (.pwmStop x c) s t := by
  unfold execPwmStop at h
  repeat' split at h
  all_goals cases h
  · exact .raised _ ‹_›
  · next tid cid hc =>
    exact .timerDone tid _ (.inl ⟨x, timerNum_of_timerOfSel (State.checkChannel_ok hc).1, .inr ⟨c, .inr (.inr rfl)⟩⟩)

theorem execMotorInit_shape {s t : State} (h : execMotorInit s = .next t) : ExecShape .motorInit s t := by
  unfold execMotorInit at h
  split at h <;> cases h
  · exact .goOn _
  · exact .pins _ _ _ _ (.inr (.inl rfl))
  · exact .timerStep .t1 _ _ (.inl ⟨rfl, rfl⟩)
  · simp only [State.setCce, State.setTimer_setTimer]
    exact .timerStep .t1 _ _ (.inl ⟨rfl, rfl⟩)
  · simp only [State.writePair, State.writeCcr, State.setTimer_setTimer]
    exact .timerDone .t1 _ (.inr (.inl ⟨rfl, .inl rfl⟩))

theorem execMotorSetSpeed_shape {id : Sel} {s t : State} (h : execMotorSetSpeed id s = .next t) :
    ExecShape (.motorSetSpeed id) s t := by
  unfold execMotorSetSpeed at h
  repeat' split at h
  all_goals cases h
  · exact .raised _ ‹_›
  · simp only [State.writePair, State.writeCcr, State.setTimer_setTimer]
    exact .timerDone .t1 _ (.inr (.inl ⟨rfl, .inr ⟨id, .inl rfl⟩⟩))

theorem execMotorStop_shape {id : Sel} {s t : State} (h : execMotorStop id s = .next t) :
    ExecShape (.motorStop id) s t := by
  unfold execMotorStop at h
  repeat' split at h
  all_goals cases h
  · exact .raised _ ‹_›
  · simp only [State.writePair, State.writeCcr, State.setTimer_setTimer]
    exact .timerDone .t1 _ (.inr (.inl ⟨rfl, .inr ⟨id, .inr rfl⟩⟩))

theorem execMotorSetDeadband_shape {s t : State} (h : execMotorSetDeadband s = .next t) :
    ExecShape .motorSetDeadband s t := by
  unfold execMotorSetDeadband at h
  repeat' split at h
  all_goals cases h
  · exact .raised _ ‹_›
  · exact .deadband _ rfl

theorem execServoInit_shape {s t : State} (h : execServoInit s = .next t) : ExecShape .servoInit s t := by
  unfold execServoInit at h
  split at h <;> cases h
  · exact .goOn _
  · exact .pins _ _ _ _ (.inr (.inr rfl))
  · exact .timerStep .t2 _ _ (.inr ⟨rfl, rfl⟩)
  · simp only [State.setCce, State.setTimer_setTimer]
    exact .timerStep .t2 _ _ (.inr ⟨rfl, rfl⟩)
  · simp only [State.writeServo, State.writeCcr, State.setTimer_setTimer]
    exact .timerDone .t2 _ (.inr (.inr ⟨rfl, .inl rfl⟩))

theorem execServoSetAngle_shape {id : Sel} {s t : State} (h : execServoSetAngle id s = .next t) :
    ExecShape (.servoSetAngle id) s t := by
  unfold execServoSetAngle at h
  repeat' split at h
  all_goals cases h
  · exact .raised _ ‹_›
  · exact .timerDone .t2 _ (.inr (.inr ⟨rfl, .inr ⟨id, rfl⟩⟩))

/-- Everything a micro-step can do when it answers a next state. -/
theorem exec_shape {i : Instr} {s t : State} (h : exec i s = .next t) : ExecShape i s t := by
  cases i with
  | adcInit => exact execAdcInit_shape h
  | adcSample ch => exact execAdcSample_shape h
  | adcAvg ch n => exact execAdcAvg_shape h
  | adcToVolt => exact execAdcToVolt_shape h
  | adcSetTimeout => exact execAdcSetTimeout_shape h
  | pwmInit x => exact execPwmInit_shape h
  | pwmSetDuty x c => exact execPwmSetDuty_shape h
  | pwmStart x c => exact execPwmStart_shape h
  | pwmStop x c => exact execPwmStop_shape h
  | motorInit => exact execMotorInit_shape h
  | motorSetSpeed id => exact execMotorSetSpeed_shape h
  | motorStop id => exact execMotorStop_shape h
  | motorSetDeadband => exact execMotorSetDeadband_shape h
  | servoInit => exact execServoInit_shape h
  | servoSetAngle id => exact execServoSetAngle_shape h

end Sys2Proof.Machine
end

