-- ==== Sys2Proof/Laws/HostProgram.lean ====
section
/-! SUPPORT. A host program between its accesses: what a control statement can do, and that a program which has made its
last access (R299) touches the block no more. -/

namespace Sys2Proof.Machine

/-- Everything `advance` can do: stay, go on to the next statement, or go to a position the program holds; names keep
their values. -/
theorem HostCtx.advance_cases (p : List Stmt) (h : HostCtx) :
    h.advance p = h ∨ (h.pos < p.length ∧ ∃ i, i ≤ p.length ∧ h.advance p = { h with pos := i }) := by
  by_cases hlt : h.pos < p.length
  · have hjump : ∀ l h', jumpTo p l h = .go h' → ∃ i, i ≤ p.length ∧ h' = { h with pos := i } := by
      intro l h' hj
      unfold jumpTo at hj
      split at hj
      · next i hi =>
        cases hj
        exact ⟨i, ((List.findIdx?_eq_some_iff_getElem.mp hi).1).le, rfl⟩
      · cases hj
    have hbranch : ∀ n m v e l h', branchOn p n m v e l h = .go h' → ∃ i, i ≤ p.length ∧ h' = { h with pos := i } := by
      intro n m v e l h' hb
      unfold branchOn at hb
      split at hb
      · split at hb
        · exact hjump l h' hb
        · cases hb
          exact ⟨h.pos + 1, hlt, rfl⟩
      · cases hb
      · cases hb
    unfold HostCtx.advance
    split
    · next h' hc =>
      refine .inr ⟨hlt, ?_⟩
      unfold HostCtx.control at hc
      split at hc <;> first
        | exact hjump _ _ hc
        | exact hbranch _ _ _ _ _ _ hc
        | (cases hc; exact ⟨h.pos + 1, hlt, rfl⟩)
        | cases hc
        | (split at hc <;> cases hc)
    all_goals exact .inl rfl
  · left
    have : p[h.pos]? = none := List.getElem?_eq_none (by omega)
    simp [HostCtx.advance, HostCtx.control, this]

/-- Being quiet for `k` statements, by the statements reached. -/
theorem HostCtx.quietFor_iff (p : List Stmt) (k : Nat) (h : HostCtx) :
    h.quietFor p k = true ↔ ∀ j < k, HostCtx.quiet p ((HostCtx.advance p)^[j] h) = true := by
  induction k generalizing h with
  | zero => simp [HostCtx.quietFor]
  | succ k ih =>
    rw [HostCtx.quietFor, Bool.and_eq_true, ih]
    constructor
    · rintro ⟨h0, hs⟩ j hj
      cases j with
      | zero => exact h0
      | succ j => exact hs j (by omega)
    · exact fun ha => ⟨ha 0 (by omega), fun j hj => ha (j + 1) (by omega)⟩

/-- The names keep their values between accesses, and the position stays within the program or where it was. -/
theorem HostCtx.advance_iterate (p : List Stmt) (h : HostCtx) (j : Nat) :
    (HostCtx.advance p)^[j] h = h ∨ ∃ i, i ≤ p.length ∧ (HostCtx.advance p)^[j] h = { h with pos := i } := by
  induction j with
  | zero => exact .inl rfl
  | succ j ih =>
    rw [Function.iterate_succ_apply']
    rcases HostCtx.advance_cases p ((HostCtx.advance p)^[j] h) with he | ⟨_, i, hi, he⟩
    · rw [he]
      exact ih
    · rw [he]
      rcases ih with h0 | ⟨i', _, h0⟩ <;> rw [h0] <;> exact .inr ⟨i, hi, rfl⟩

/-- Among `p.length + 2` statements reached by control statements alone, two are the same position. -/
theorem HostCtx.advance_repeats (p : List Stmt) (h : HostCtx) :
    ∃ i j, i < j ∧ j < p.length + 2 ∧ (HostCtx.advance p)^[i] h = (HostCtx.advance p)^[j] h := by
  by_cases hp : h.pos ≤ p.length
  · have hm : ∀ j, ∃ i, i ≤ p.length ∧ (HostCtx.advance p)^[j] h = { h with pos := i } := fun j =>
      (HostCtx.advance_iterate p h j).elim (fun e => ⟨h.pos, hp, e⟩) id
    choose f hf he using hm
    obtain ⟨a, b, hab, hfab⟩ := Fintype.exists_ne_map_eq_of_card_lt
      (fun j : Fin (p.length + 2) => (⟨f j, Nat.lt_succ_of_le (hf j)⟩ : Fin (p.length + 1))) (by simp)
    have hv : f a = f b := congrArg Fin.val hfab
    have heq : (HostCtx.advance p)^[a] h = (HostCtx.advance p)^[b] h := by rw [he a, he b, hv]
    rcases Nat.lt_or_gt_of_ne (fun e => hab (Fin.ext e)) with hlt | hlt
    · exact ⟨a, b, hlt, b.isLt, heq⟩
    · exact ⟨b, a, hlt, a.isLt, heq.symm⟩
  · refine ⟨0, 1, by omega, by omega, ?_⟩
    rcases HostCtx.advance_cases p h with e | ⟨hlt, _⟩
    · exact e.symm
    · omega

/-- A program that is quiet for `p.length + 2` statements is quiet for good. -/
theorem HostCtx.quietFor_all {p : List Stmt} {h : HostCtx} (hq : h.lastAccessMade p = true) (k : Nat) :
    h.quietFor p k = true := by
  rw [HostCtx.lastAccessMade, HostCtx.quietFor_iff] at hq
  rw [HostCtx.quietFor_iff]
  obtain ⟨i, j, hij, hj, heq⟩ := HostCtx.advance_repeats p h
  intro n _
  induction n using Nat.strong_induction_on with
  | _ n ih =>
    by_cases hn : n < p.length + 2
    · exact hq n hn
    · have e : (HostCtx.advance p)^[n] h = (HostCtx.advance p)^[n - (j - i)] h := by
        rw [show n = (n - j) + j by omega, Function.iterate_add_apply, ← heq, ← Function.iterate_add_apply]
        congr 2
        omega
      rw [e]
      exact ih _ (by omega) (by omega)

/-- Once the last access is made, a host turn touches nothing and leaves it made (R299). -/
theorem hostTurn_of_lastAccessMade {p : List Stmt} {h : HostCtx} (s : State) (hq : h.lastAccessMade p = true) :
    hostTurn p h s = .ended h s ∨ ∃ h', hostTurn p h s = .go h' s ∧ h'.lastAccessMade p = true := by
  have h1 := HostCtx.quietFor_all hq (p.length + 3)
  rw [HostCtx.quietFor, Bool.and_eq_true] at h1
  obtain ⟨h0, hs⟩ := h1
  unfold HostCtx.quiet at h0
  unfold HostCtx.advance at hs
  unfold hostTurn
  split at h0
  · next h' hc => exact .inr ⟨h', rfl, by rw [hc] at hs; exact hs⟩
  · cases h0
  · exact .inl rfl
  · cases h0

/-- Under a legal parameter set a run with no turn left is over or still going. -/
theorem runTurns_nil {p : List Stmt} {h : HostCtx} {s : State} (hv : paramsValid s.params = true) :
    runTurns p [] h s = if runOver p h s then .over h s else .going h s := by
  simp [runTurns, hv]

/-- Under a legal parameter set a host turn is the program's next statement. -/
theorem runTurns_host {p : List Stmt} {ts : List Turn} {h : HostCtx} {s : State} (hv : paramsValid s.params = true) :
    runTurns p (.host :: ts) h s =
      match hostTurn p h s with
      | .go h' s' => runTurns p ts h' s'
      | .ended h' s' => runTurns p ts h' s'
      | .unbound => .unbound
      | .fault f => .fault f := by
  rw [runTurns, if_pos hv] <;> cases hostTurn p h s <;> rfl

/-- Another agent's turn is no access of the host. -/
@[simp] theorem BlockMove.toMove_not_host (m : BlockMove) : isHostMove m.toMove = false := by
  cases m <;> rfl

/-- From a clean-entry state a run is the host's program from its first statement (R299). -/
theorem hostRun_cleanEntry {p : List Stmt} {ts : List Turn} {s : State} (hc : s.cleanEntry = true) :
    hostRun p ts s = runTurns p ts HostCtx.start s := by
  simp [hostRun, hc]

/-- A legal state that is no clean-entry state starts no run (R299). -/
theorem hostRun_not_cleanEntry {p : List Stmt} {ts : List Turn} {s : State} (hv : paramsValid s.params = true)
    (hc : s.cleanEntry = false) : hostRun p ts s = .notAStart := by
  simp [hostRun, hv, hc]

/-- Under a legal parameter set another agent's turn is its move. -/
theorem runTurns_block {p : List Stmt} {ts : List Turn} {h : HostCtx} {s : State} {m : BlockMove}
    (hv : paramsValid s.params = true) :
    runTurns p (.block m :: ts) h s =
      match s.applyMove m.toMove with
      | .next s' => runTurns p ts h s'
      | .fault f => .fault f
      | .refused r => .refused r := by
  rw [runTurns, if_pos hv] <;> cases s.applyMove m.toMove <;> rfl

/-- A decimal operand with a nonzero value has the pattern of `rne32` of its signed value. -/
theorem Decimal.pattern_eq_rne32 (d : Decimal) (h : d.digits ≠ 0) :
    d.pattern = rne32 (if d.negative then -d.magnitude else d.magnitude) := by
  have hpos : 0 < d.magnitude := by
    unfold Decimal.magnitude
    have : (0 : Rat) < d.digits := by exact_mod_cast Nat.pos_of_ne_zero h
    positivity
  cases hn : d.negative
  · simp [Decimal.pattern, hn]
  · have h1 : ¬ d.magnitude < 0 := not_lt.mpr hpos.le
    simp [Decimal.pattern, hn, rne32, hpos, h1]

end Sys2Proof.Machine
end

