-- ==== Sys2Proof/Laws/Invariant.lean ====
section
/-! SUPPORT. The timer operations keep a timer's part of the invariant, and what the sequencer's part says in each
mode. -/

namespace Sys2Proof.Machine

/-! ## One timer -/

/-- A running timer is ready (R180). -/
theorem TimerInv.ready_of_cen {bits psc : Nat} {t : Timer} (h : TimerInv bits psc t) (hc : t.cen = true) :
    t.ready = true := by
  by_contra hr
  have ht := h.off (by simpa using hr)
  rw [ht] at hc
  cases hc

theorem TimerInv.of_reset {bits psc : Nat} (hb : 1 ≤ bits) : TimerInv bits psc Timer.reset := by
  have h2 : 2 ^ 1 ≤ 2 ^ bits := Nat.pow_le_pow_right (by norm_num) hb
  refine ⟨fun _ => rfl, by simp [Timer.reset], by simp [Timer.reset], ?_, ?_, by simp [Timer.reset],
    by simp [Timer.reset], ?_⟩
  · show 0 + 2 ≤ 2 ^ bits
    omega
  · show 0 + 2 ≤ 2 ^ bits
    omega
  · intro c
    cases c <;> simp [Timer.reset, Channel.reset]

theorem TimerInv.setCce {bits psc : Nat} {t : Timer} (h : TimerInv bits psc t) (hr : t.ready = true) (c : ChanId)
    (b : Bool) : TimerInv bits psc (t.setCce c b) := by
  refine ⟨by simp [hr], fun _ => ⟨by simpa using (h.on hr).1, by simpa using (h.on hr).2.1, fun d => ?_⟩,
    by simpa using h.psc, by simpa using h.arrPre, by simpa using h.arrAct, by simpa using h.cnt,
    by simpa using h.pscCnt, fun d => ?_⟩
  · have hd := (h.on hr).2.2 d
    rw [Timer.ch_setCce]
    split
    · next e => rw [e] at hd; exact hd
    · exact hd
  · have hd := h.ccr d
    rw [Timer.ch_setCce]
    split
    · next e => rw [e] at hd; exact hd
    · exact hd

/-- A compare value that does not exceed the period plus one fits its field (R172, R176, R183). -/
theorem TimerInv.writeCcr {bits psc : Nat} {t : Timer} (h : TimerInv bits psc t) (hr : t.ready = true) (c : ChanId)
    {v : Nat} (hb : bits ≤ 32) (hv : v ≤ t.arrPre.toNat + 1) :
    TimerInv bits psc (t.writeCcr c (BitVec.ofNat 32 v)) := by
  have hp := h.arrPre
  have h32 : 2 ^ bits ≤ 2 ^ 32 := Nat.pow_le_pow_right (by norm_num) hb
  have hv' : (BitVec.ofNat 32 v).toNat < 2 ^ bits := by
    rw [BitVec.toNat_ofNat, Nat.mod_eq_of_lt] <;> omega
  refine ⟨by simp [hr], fun _ => ⟨by simpa using (h.on hr).1, by simpa using (h.on hr).2.1, fun d => ?_⟩,
    by simpa using h.psc, by simpa using h.arrPre, by simpa using h.arrAct, by simpa using h.cnt,
    by simpa using h.pscCnt, fun d => ?_⟩
  · have hd := (h.on hr).2.2 d
    rw [Timer.ch_writeCcr]
    split
    · next e => rw [e] at hd; simpa using hd
    · exact hd
  · have hd := h.ccr d
    have ho := ((h.on hr).2.2 d).2
    rw [Timer.ch_writeCcr]
    split
    · next e =>
      rw [e] at hd ho
      rw [Channel.writeCcr_buffered _ _ ho]
      exact ⟨hv', hd.2⟩
    · exact hd

theorem TimerInv.configure {bits psc : Nat} {t : Timer} (h : TimerInv bits psc t) (hb : bits ≤ 32)
    (hp : psc < 2 ^ 16) {v : Nat} (hv : v + 2 ≤ 2 ^ bits) :
    TimerInv bits psc (t.configure (BitVec.ofNat 16 psc) (BitVec.ofNat 32 v)) := by
  have h32 : 2 ^ bits ≤ 2 ^ 32 := Nat.pow_le_pow_right (by norm_num) hb
  have hvv : v % 4294967296 = v := Nat.mod_eq_of_lt (by omega)
  have hpp : psc % 65536 = psc := Nat.mod_eq_of_lt (by omega)
  cases hc : t.cen with
  | true =>
    have hr := h.ready_of_cen hc
    rw [Timer.configure_running _ _ _ hc]
    refine ⟨by simp, fun _ => ⟨by simp [hc], by simp, fun c => ?_⟩,
      fun _ => ⟨by simp [hpp], by simpa using (h.psc hr).2⟩, by simpa [hvv] using hv, by simpa using h.arrAct,
      by simpa using h.cnt, by simpa using h.pscCnt, fun c => ?_⟩
    · cases c <;> exact ⟨rfl, rfl⟩
    · have hcc := h.ccr c
      cases c <;> exact hcc
  | false =>
    rw [Timer.configure_stopped _ _ _ hc]
    refine ⟨by simp, fun _ => ⟨by simp, by simp, fun c => ?_⟩, fun _ => ⟨by simp [hpp], by simp [hpp]⟩,
      by simpa [hvv] using hv, by simpa [hvv] using hv, by simp, by simp, fun c => ?_⟩
    · cases c <;> exact ⟨rfl, rfl⟩
    · have hcc := h.ccr c
      cases c <;> exact ⟨hcc.1, hcc.1⟩

theorem TimerInv.tick {bits psc : Nat} {t : Timer} (h : TimerInv bits psc t) (hc : t.cen = true) :
    TimerInv bits psc t.tick := by
  have hr := h.ready_of_cen hc
  obtain ⟨h1, h2, h3⟩ := h.on hr
  have h4 := h.psc hr
  have hcnt := h.cnt
  have hpsc := h.pscCnt
  have hpA := t.pscAct.isLt
  have haA := t.arrAct.isLt
  unfold Timer.tick
  split
  · next hl =>
    have hl' : t.pscCnt.toNat < t.pscAct.toNat := hl
    refine ⟨by simp [hr], fun _ => h.on hr, fun _ => h4, h.arrPre, h.arrAct, hcnt, ?_, h.ccr⟩
    show (t.pscCnt + 1).toNat ≤ _
    rw [BitVec.toNat_add]
    simp
    omega
  · split
    · refine ⟨by simp [hr], fun _ => ⟨h1, h2, fun c => ?_⟩, fun _ => ⟨h4.1, h4.1⟩, h.arrPre, ?_, by simp, by simp,
        fun c => ?_⟩
      · have hd := h3 c
        rw [Timer.ch_update]
        cases c <;> simpa using hd
      · have ha := h.arrPre
        simpa [h2] using ha
      · have hd := h.ccr c
        have ho := (h3 c).2
        have hu : (t.ch c).update.ccrPre.toNat < 2 ^ bits ∧ (t.ch c).update.ccrAct.toNat < 2 ^ bits := by
          rw [Channel.update_buffered _ ho]
          exact ⟨hd.1, hd.1⟩
        rw [Timer.ch_update]
        cases c <;> exact hu
    · next hl =>
      have hl' : ¬ t.arrAct.toNat ≤ t.cnt.toNat := hl
      refine ⟨by simp [hr], fun _ => h.on hr, fun _ => h4, h.arrPre, h.arrAct, ?_, by simp, h.ccr⟩
      show (t.cnt + 1).toNat ≤ _
      rw [BitVec.toNat_add]
      simp
      omega

/-! ## The sequencer -/

theorem seqInv_idle {s : State} (hm : s.seq.mode = .idle) :
    seqInv s ↔ s.seq.step = none ∧ notConverting s.adc := by
  simp only [seqInv, hm]

theorem seqInv_illegal {s : State} {e : IllegalWord} (hm : s.seq.mode = .run) (hd : decode s.seq.cmd = .error e) :
    seqInv s ↔ s.status.done = false ∧ s.seq.step = some .s1 ∧ notConverting s.adc := by
  simp only [seqInv, hm, hd]

theorem seqInv_run {s : State} {i : Instr} (hm : s.seq.mode = .run) (hd : decode s.seq.cmd = .ok i) :
    seqInv s ↔ s.status.done = false ∧ ∃ l, s.seq.step = some l ∧ hasStep i l = true ∧ stepInv s i l := by
  simp only [seqInv, hm, hd]

/-- Two states with the same timers agree on each of them. -/
theorem State.timer_congr {s u : State} (h0 : s.tim0 = u.tim0) (h1 : s.tim1 = u.tim1) (h2 : s.tim2 = u.tim2)
    (t : TimerId) : s.timer t = u.timer t := by
  cases t
  · exact h0
  · exact h1
  · exact h2

end Sys2Proof.Machine
end

