-- ==== Sys2Proof/Laws/PerInstr.lean ====
section
/-! SUPPORT. A fact about each command as syntax: its word leaves `RSV` clear (R100) and its opcode is one of the
table's (R102). -/

namespace Sys2Proof

@[simp] theorem packCommand_opc (opc : Byte) (f1 f2 : Sel) (f3 : Byte) :
    Word.opc (packCommand opc f1 f2 f3) = opc := by
  apply BitVec.eq_of_getLsbD_eq
  intro i hi
  have hi' : i < 8 := hi
  interval_cases i <;> simp [Word.opc, packCommand]

@[simp] theorem packCommand_f1 (opc : Byte) (f1 f2 : Sel) (f3 : Byte) :
    Word.f1 (packCommand opc f1 f2 f3) = f1 := by
  apply BitVec.eq_of_getLsbD_eq
  intro i hi
  have hi' : i < 4 := hi
  interval_cases i <;> simp [Word.f1, packCommand]

@[simp] theorem packCommand_f2 (opc : Byte) (f1 f2 : Sel) (f3 : Byte) :
    Word.f2 (packCommand opc f1 f2 f3) = f2 := by
  apply BitVec.eq_of_getLsbD_eq
  intro i hi
  have hi' : i < 4 := hi
  interval_cases i <;> simp [Word.f2, packCommand]

@[simp] theorem packCommand_f3 (opc : Byte) (f1 f2 : Sel) (f3 : Byte) :
    Word.f3 (packCommand opc f1 f2 f3) = f3 := by
  apply BitVec.eq_of_getLsbD_eq
  intro i hi
  have hi' : i < 8 := hi
  interval_cases i <;> simp [Word.f3, packCommand]

@[simp] theorem packCommand_rsv (opc : Byte) (f1 f2 : Sel) (f3 : Byte) :
    Word.rsv (packCommand opc f1 f2 f3) = 0#8 := by
  apply BitVec.eq_of_getLsbD_eq
  intro i hi
  have hi' : i < 8 := hi
  interval_cases i <;> simp [Word.rsv, packCommand]

/-- The word of a command has a clear `RSV` field and an opcode of the table. -/
def Laws.CommandWord.Statement (i : Instr) : Prop :=
  Word.rsv (encode i) = 0#8 ∧ Word.opc (encode i) ∈ assignedOpcodes

theorem assignedOpcodes_eq :
    assignedOpcodes = [0x01#8, 0x02#8, 0x03#8, 0x04#8, 0x05#8, 0x10#8, 0x11#8, 0x12#8, 0x13#8, 0x20#8, 0x21#8, 0x22#8,
      0x23#8, 0x30#8, 0x31#8] := by
  decide

namespace Laws.CommandWord

theorem adcInit : Statement .adcInit := by simp [Statement, encode, assignedOpcodes_eq]

theorem adcSample (ch : Sel) : Statement (.adcSample ch) := by simp [Statement, encode, assignedOpcodes_eq]

theorem adcAvg (ch : Sel) (times : Byte) : Statement (.adcAvg ch times) := by
  simp [Statement, encode, assignedOpcodes_eq]

theorem adcToVolt : Statement .adcToVolt := by simp [Statement, encode, assignedOpcodes_eq]

theorem adcSetTimeout : Statement .adcSetTimeout := by simp [Statement, encode, assignedOpcodes_eq]

theorem pwmInit (t : Sel) : Statement (.pwmInit t) := by simp [Statement, encode, assignedOpcodes_eq]

theorem pwmSetDuty (t c : Sel) : Statement (.pwmSetDuty t c) := by simp [Statement, encode, assignedOpcodes_eq]

theorem pwmStart (t c : Sel) : Statement (.pwmStart t c) := by simp [Statement, encode, assignedOpcodes_eq]

theorem pwmStop (t c : Sel) : Statement (.pwmStop t c) := by simp [Statement, encode, assignedOpcodes_eq]

theorem motorInit : Statement .motorInit := by simp [Statement, encode, assignedOpcodes_eq]

theorem motorSetSpeed (id : Sel) : Statement (.motorSetSpeed id) := by simp [Statement, encode, assignedOpcodes_eq]

theorem motorStop (id : Sel) : Statement (.motorStop id) := by simp [Statement, encode, assignedOpcodes_eq]

theorem motorSetDeadband : Statement .motorSetDeadband := by simp [Statement, encode, assignedOpcodes_eq]

theorem servoInit : Statement .servoInit := by simp [Statement, encode, assignedOpcodes_eq]

theorem servoSetAngle (id : Sel) : Statement (.servoSetAngle id) := by simp [Statement, encode, assignedOpcodes_eq]

end Laws.CommandWord

end Sys2Proof
end

