-- ==== Sys2Proof/Tests/Slice0.lean ====
section
/-! SUPPORT. The model's own tests: what WellFormed refuses, words written out from the patterns of R102, one-step
vectors of spec/95_test_vectors.md (the expected values are that file's), and for each statement with hypotheses
concrete values that meet them. -/

namespace Sys2Proof.Tests

open Sys2Proof.Machine Sys2Proof.Claims

/-! ## Small states -/

/-- The state `s` with the command word `w` running before micro-step `l` and the operand `a` latched. -/
def runningWord (s : State) (w : Word) (l : MicroStep) (a : Word) : State :=
  { s with
    seq := { s.seq with mode := .run, cmd := w, arg := a, step := some l }
    status := { s.status with done := false } }

/-- The state `s` with the command `i` running before micro-step `l` and the operand `a` latched. -/
def running (s : State) (i : Instr) (l : MicroStep) (a : Word) : State := runningWord s (encode i) l a

/-- The ADC after `adc.init`. -/
def readyAdc : Adc := { Adc.reset with adon := true, swtrig := true, ready := true, div := 6, smp := 7 }

/-- Reset, then `adc.init`. -/
def adcReady : State := { State.reset with adc := readyAdc }

/-- Reset, then timers 0, 1 and 2 configured for 1 kHz, 1 kHz and 50 Hz. -/
def timersReady : State :=
  { State.reset with
    tim0 := Timer.reset.configure 71 999
    tim1 := Timer.reset.configure 35 999
    tim2 := Timer.reset.configure 35 19999 }

/-- A conversion on channel `ch` in flight (`eoc` false) or finished with the value `v`. -/
def converted (ch : Sel) (eoc : Bool) (v : BitVec 16) : State :=
  { adcReady with adc := { readyAdc with chsel := ch, eoc := eoc, pend := !eoc, dr := v } }

/-- The result is a next state with the property. -/
def answers (r : Result) (p : State → Bool) : Bool :=
  match r with
  | .next t => p t
  | .fault _ => false
  | .refused _ => false

/-- The sequencer's step of a running command. -/
def ran (s : State) (i : Instr) (l : MicroStep) (a : Word) (p : State → Bool) : Bool :=
  answers (running s i l a).sequencerStep p

/-! ## WellFormed: one ill-formed term for each check (R105) -/

theorem test_refuses_channel_ten : Instr.wellFormed (.adcSample 10) = false := by decide
theorem test_refuses_avg_channel : Instr.wellFormed (.adcAvg 15 1) = false := by decide
theorem test_refuses_times_zero : Instr.wellFormed (.adcAvg 9 0) = false := by decide
theorem test_refuses_timer_three :
    Instr.wellFormed (.pwmInit 3) = false ∧ Instr.wellFormed (.pwmSetDuty 3 1) = false
      ∧ Instr.wellFormed (.pwmStart 15 1) = false ∧ Instr.wellFormed (.pwmStop 3 4) = false := by decide
theorem test_refuses_pwm_channel_zero_and_five :
    Instr.wellFormed (.pwmSetDuty 0 0) = false ∧ Instr.wellFormed (.pwmStart 0 5) = false
      ∧ Instr.wellFormed (.pwmStop 2 0) = false := by decide
theorem test_refuses_actuator_zero_and_three :
    Instr.wellFormed (.motorSetSpeed 0) = false ∧ Instr.wellFormed (.motorStop 3) = false
      ∧ Instr.wellFormed (.servoSetAngle 0) = false := by decide
theorem test_accepts_domain_ends :
    Instr.wellFormed (.adcAvg 9 255) = true ∧ Instr.wellFormed (.pwmStart 2 4) = true
      ∧ Instr.wellFormed (.motorStop 2) = true := by decide

/-! ## Decoding: words written bit by bit from the patterns of R102 -/

theorem test_decode_adc :
    decode 0b00000000000000000000000000000001#32 = .ok .adcInit
    ∧ decode 0b00000000000000000000100100000010#32 = .ok (.adcSample 9)
    ∧ decode 0b00000000111111110000100100000011#32 = .ok (.adcAvg 9 255)
    ∧ decode 0b00000000000001000000001100000011#32 = .ok (.adcAvg 3 4)
    ∧ decode 0b00000000000000000000000000000100#32 = .ok .adcToVolt
    ∧ decode 0b00000000000000000000000000000101#32 = .ok .adcSetTimeout := by decide

theorem test_decode_pwm :
    decode 0b00000000000000000000001000010000#32 = .ok (.pwmInit 2)
    ∧ decode 0b00000000000000001111001100010001#32 = .ok (.pwmSetDuty 3 15)
    ∧ decode 0b00000000000000000100000100010010#32 = .ok (.pwmStart 1 4)
    ∧ decode 0b00000000000000000001001000010011#32 = .ok (.pwmStop 2 1) := by decide

theorem test_decode_motor :
    decode 0b00000000000000000000000000100000#32 = .ok .motorInit
    ∧ decode 0b00000000000000000000000100100001#32 = .ok (.motorSetSpeed 1)
    ∧ decode 0b00000000000000000000001000100010#32 = .ok (.motorStop 2)
    ∧ decode 0b00000000000000000000000000100011#32 = .ok .motorSetDeadband := by decide

theorem test_decode_servo :
    decode 0b00000000000000000000000000110000#32 = .ok .servoInit
    ∧ decode 0b00000000000000000000001000110001#32 = .ok (.servoSetAngle 2) := by decide

/-- The illegal words of 95_test_vectors.md 2.5, each under its first reason. -/
theorem test_decode_illegal :
    decode 0x00000000 = .error .unassignedOpcode ∧ decode 0x00000006 = .error .unassignedOpcode
    ∧ decode 0x00000014 = .error .unassignedOpcode ∧ decode 0x00000024 = .error .unassignedOpcode
    ∧ decode 0x00000032 = .error .unassignedOpcode ∧ decode 0x000000FF = .error .unassignedOpcode
    ∧ decode 0xFFFFFFFF = .error .unassignedOpcode
    ∧ decode 0x80000001 = .error .reservedFieldNonzero ∧ decode 0x01FF0C03 = .error .reservedFieldNonzero
    ∧ decode 0x00000101 = .error .unusedFieldNonzero ∧ decode 0x0000F302 = .error .unusedFieldNonzero
    ∧ decode 0x00101011 = .error .unusedFieldNonzero := by decide

theorem test_decodeTableWord :
    decodeTableWord 32 0x00FF0903 = some (.adcAvg 9 255) ∧ decodeTableWord 8 0x30 = some .servoInit
      ∧ decodeTableWord 40 0x30 = none := by decide

/-! ## The step runs what was placed -/

theorem test_placed_command_runs :
    answers (step (State.reset.withFetchWord 32 0x00000020))
      (fun t => t.seq.cmd == 0x20 && t.seq.step == some .s2 && t.seq.busy) = true := by decide

theorem test_illegal_word_ends :
    answers (step (State.reset.withFetchWord 32 0x80000001))
      (fun t => t.status.lastErr == 4 && t.errCmd == 0x80000001 && !t.seq.busy && t.adc == Adc.reset) = true := by
  decide

/-! ## ADC commands (95_test_vectors.md 2.1) -/

theorem test_adcInit_completes :
    ran { adcReady with adc := { readyAdc with ready := false } } .adcInit .s10 0
      (fun t => t.adc.ctrlView == 0x00007689 && t.statusView == 0x00000402) = true := by decide

theorem test_adcInit_times_out :
    ran { adcReady with
          timeout := 2
          seq := { Seq.reset with polls := 1 }
          adc := { readyAdc with ready := false, rstcal := true } } .adcInit .s7 0
      (fun t => t.adc.ctrlView == 0x00007619 && t.statusView == 0x00000132 && t.errCmd == 1) = true := by decide

theorem test_adcSample_result :
    ran { converted 3 false 1234 with
          adc := { readyAdc with chsel := 3, dr := 1234 }
          seq := { Seq.reset with val := 1234 } } (.adcSample 3) .s4 0
      (fun t => t.result == 0x4D2 && t.adc.ctrlView == 0x00037689 && t.status.lastErr == 0) = true := by decide

theorem test_adcSample_checks_channel_before_readiness :
    ran State.reset (.adcSample 10) .s1 0 (fun t => t.status.lastErr == 1) = true
    ∧ ran State.reset (.adcSample 3) .s1 0 (fun t => t.statusView == 0x00000152) = true := by decide

theorem test_adcAvg_truncates :
    ran { adcReady with seq := { Seq.reset with acc := 407, k := 4 } } (.adcAvg 3 4) .s5 0
      (fun t => t.result == 101 && t.statusView == 0x402) = true := by decide

theorem test_adcAvg_times_out :
    ran { converted 3 false 20 with
          timeout := 5
          seq := { Seq.reset with polls := 4, acc := 30, k := 2 } } (.adcAvg 3 4) .s4 0
      (fun t => t.result == 0 && t.status.lastErr == 3 && t.errCmd == 0x00040303 && !t.adc.pend) = true := by decide

theorem test_adcToVolt_values :
    voltage 1 = 0x3A534067 ∧ voltage 100 = 0x3DA50A51 ∧ voltage 1003 = 0x3F4EEB55 ∧ voltage 2047 = 0x3FD325FF
      ∧ voltage 3000 = 0x401AB9AC ∧ voltage 4094 = 0x405325FF := by decide +kernel

theorem test_adcToVolt_ends :
    ran State.reset .adcToVolt .s1 4095 (fun t => t.result == 0x40533333 && t.statusView == 0x2) = true
    ∧ ran State.reset .adcToVolt .s1 4096 (fun t => t.result == 0 && t.status.lastErr == 1) = true := by
  decide +kernel

theorem test_adcSetTimeout :
    ran State.reset .adcSetTimeout .s1 0xFFFFFFFF (fun t => t.timeout == 0xFFFFFFFF && t.statusView == 2) = true := by
  decide

theorem test_adcSetTimeout_illegal_word :
    answers (runningWord State.reset 0x00000105 .s1 7).sequencerStep
      (fun t => t.timeout == 0 && t.status.lastErr == 4) = true := by decide

/-! ## PWM commands (95_test_vectors.md 2.2) -/

theorem test_pwmInit_state :
    ran State.reset (.pwmInit 0) .s2 1000
      (fun t => t.tim0.pscPre == 71 && t.tim0.arrPre == 999 && t.tim0.ctrlView == 0x0000FF07
        && t.statusView == 0x00010002) = true := by decide

theorem test_pwmInit_frequencies :
    ran State.reset (.pwmInit 1) .s1 15 (fun t => t.status.lastErr == 2) = true
    ∧ ran State.reset (.pwmInit 1) .s1 16 (fun t => t.seq.step == some .s2) = true
    ∧ ran State.reset (.pwmInit 1) .s1 1000001 (fun t => t.status.lastErr == 1) = true := by decide

theorem test_pulse_vectors :
    pulse 0x42053333 999 = 333 ∧ pulse 0x41480000 62499 = 7813 ∧ pulse 0x4247FFFF 0 = 0 ∧ pulse 0x42480000 0 = 1
      ∧ pulse 0x43160000 999 = 1000 ∧ pulse 0xC0A00000 999 = 0 ∧ pulse 0xFFC00001 999 = 0 ∧ pulse 0x7F800000 49 = 50
      ∧ pulse 0x3D4CC250 999 = 0 := by decide +kernel

theorem test_pwmSetDuty_writes_its_channel :
    ran timersReady (.pwmSetDuty 0 4) .s1 0x42480000
      (fun t => t.tim0.ch4.ccrPre == 500 && t.tim0.ch4.ccrAct == 0 && t.tim0.ch1.ccrPre == 0) = true := by
  decide +kernel

theorem test_pwmStart :
    ran timersReady (.pwmStart 0 1) .s1 0 (fun t => t.tim0.ctrlView == 0x0000FF17) = true
    ∧ ran State.reset (.pwmStart 0 1) .s1 0 (fun t => t.status.lastErr == 5) = true := by decide

theorem test_pwmStop :
    ran (timersReady.setCce .t0 .c1 true) (.pwmStop 0 1) .s1 0 (fun t => t.tim0.ctrlView == 0x0000FF07) = true
    ∧ ran timersReady (.pwmStop 3 1) .s1 0 (fun t => t.status.lastErr == 1) = true := by decide

/-- The tick trace of 95_test_vectors.md 2.2 at n = 71 and n = 72: the prescaler counts to 71 with no update event, then
the counter takes its first step. -/
theorem test_tick_prescaler :
    let t : Timer := { (Timer.reset.configure 71 1).setCce .c1 true with pscCnt := 70 }
    (t.tick.pscCnt = 71 ∧ t.tick.cnt = 0) ∧ t.tick.tick.pscCnt = 0 ∧ t.tick.tick.cnt = 1
      ∧ t.tick.tick.ctrlView = 0x0000FF17 := by decide

/-- The tick trace of 95_test_vectors.md 2.2 around its wrap at n = 144. -/
theorem test_tick_wrap :
    let t : Timer := { (Timer.reset.configure 71 1).setCce .c1 true with cnt := 1, pscCnt := 71 }
    let u := (t.writeCcr .c1 1).tick
    u.cnt = 0 ∧ u.pscCnt = 0 ∧ u.ch1.ccrAct = 1 ∧ u.ctrlView = 0x0001FF17 := by decide

/-! ## Motor commands (95_test_vectors.md 2.3) -/

theorem test_motorInit_outputs :
    ran timersReady .motorInit .s4 0 (fun t => t.tim1.ctrlView == 0x0000FFF7) = true := by decide

theorem test_motorInit_completes :
    ran { State.reset with tim1 := Timer.reset.configure 35 999 } .motorInit .s5 0
      (fun t => t.statusView == 0x00020002 && t.tim1.ch4.ccrPre == 0) = true := by decide

theorem test_motorSetSpeed_signs :
    ran timersReady (.motorSetSpeed 1) .s1 0x80000000
      (fun t => t.tim1.ch1.ccrPre == 0 && t.tim1.ch2.ccrPre == 1000) = true
    ∧ ran timersReady (.motorSetSpeed 2) .s1 0xFFFFFFD8
      (fun t => t.tim1.ch3.ccrPre == 0 && t.tim1.ch4.ccrPre == 400 && t.tim1.ch2.ccrPre == 0) = true := by
  decide +kernel

theorem test_motorSetSpeed_deadband :
    ran { timersReady with deadband := 5 } (.motorSetSpeed 1) .s1 5 (fun t => t.tim1.ch1.ccrPre == 0) = true
    ∧ ran { timersReady with deadband := 5 } (.motorSetSpeed 1) .s1 6
      (fun t => t.tim1.ch1.ccrPre == 60 && t.tim1.ch2.ccrPre == 0) = true := by decide +kernel

theorem test_motorStop :
    ran { timersReady with tim1 := timersReady.tim1.writeCcr .c3 400 } (.motorStop 2) .s1 0
      (fun t => t.tim1.ch3.ccrPre == 0 && t.tim1.ch4.ccrPre == 0) = true
    ∧ ran timersReady (.motorStop 0) .s1 0 (fun t => t.status.lastErr == 1) = true := by decide +kernel

theorem test_motorSetDeadband :
    ran State.reset .motorSetDeadband .s1 100 (fun t => t.deadband == 100 && t.status.lastErr == 0) = true
    ∧ ran State.reset .motorSetDeadband .s1 101 (fun t => t.deadband == 0 && t.status.lastErr == 1) = true := by
  decide

/-! ## Servo commands (95_test_vectors.md 2.4) -/

theorem test_servoInit_completes :
    ran { State.reset with tim2 := ((Timer.reset.configure 35 19999).setCce .c1 true).setCce .c2 true } .servoInit .s5 0
      (fun t => t.tim2.ch1.ccrPre == 1500 && t.tim2.ch2.ccrPre == 1500 && t.tim2.ch3.ccrPre == 0
        && t.tim2.ctrlView == 0x0000FF37 && t.statusView == 0x00040002) = true := by decide +kernel

theorem test_servoSetAngle :
    ran timersReady (.servoSetAngle 2) .s1 0x42340000
      (fun t => t.tim2.ch2.ccrPre == 1000 && t.tim2.ch1.ccrPre == 0) = true
    ∧ ran State.reset (.servoSetAngle 1) .s1 0x42B40000 (fun t => t.statusView == 0x00000152) = true := by
  decide +kernel

theorem test_servoPulse_vectors :
    servoPulse 0x3F900000 19999 = 513 ∧ servoPulse 0x40580000 19999 = 538 ∧ servoPulse 0x41580000 999 = 33
      ∧ servoPulse 0x43480000 19999 = 2500 ∧ servoPulse 0xC1200000 19999 = 500 ∧ servoPulse 0x7FC00000 999 = 25 := by
  decide +kernel

/-! ## The window (95_test_vectors.md 2.6) -/

theorem test_read_reserved_slot : State.reset.memRead (Config.aspaBase + 0xFC) 4 = .done 0 := by
  rw [State.memRead_word _ (by decide) (by decide)]
  rfl

theorem test_write_result_ignored :
    State.reset.memWrite (Config.aspaBase + 0x0C) 4 0x12345678 = .done State.reset := by
  rw [State.memWrite_word _ _ (by decide) (by decide)]
  rfl

theorem test_clears_error_sticky_only :
    (State.acknowledge
      { State.reset with status := { done := true, lastErr := 5, errSticky := true, ovr := true } }
        0x00000100).statusView = 0x00000252 := by decide

theorem test_byte_order :
    let s : State := { State.reset with arg := 0x42053333 }
    s.windowByte 4 = 0x33 ∧ s.windowByte 5 = 0x33 ∧ s.windowByte 6 = 0x05 ∧ s.windowByte 7 = 0x42 := by decide

/-! ## Host programs (R107, R299) -/

/-- A program that reads, then spins without an access. -/
def spinning : List Stmt := [.rd 0x08 "S", .label "here", .beq "S" 0 (.lit 0) "here", .halt]

/-- The last access is ahead of the `rd`, is made while the program spins or has halted, and stays ahead where the
program has no meaning. -/
theorem test_lastAccessMade :
    HostCtx.lastAccessMade spinning ⟨0, []⟩ = false ∧ HostCtx.lastAccessMade spinning ⟨1, [("S", 5)]⟩ = true
      ∧ HostCtx.lastAccessMade spinning ⟨3, []⟩ = true ∧ HostCtx.lastAccessMade spinning ⟨1, []⟩ = false
      ∧ HostCtx.lastAccessMade [.b "gone"] ⟨0, []⟩ = false := by decide

/-- A name stands for `V` in `poll`, `beq` and `bne` (R107), and one that nothing has bound has no value. -/
theorem test_named_values :
    HostCtx.control [.poll 0x0C 0xFF (.name "V")] ⟨0, [("V", 7)]⟩ = .access (.poll 0x0C 0xFF 7)
    ∧ HostCtx.control [.poll 0x0C 0xFF (.name "V")] ⟨0, []⟩ = .unbound
    ∧ HostCtx.control [.beq "S" 0xF (.name "V") "l", .halt, .label "l"] ⟨0, [("S", 0x17), ("V", 7)]⟩
        = .go ⟨2, [("S", 0x17), ("V", 7)]⟩
    ∧ HostCtx.control [.bne "S" 0xF (.name "V") "l", .halt, .label "l"] ⟨0, [("S", 0x17), ("V", 7)]⟩
        = .go ⟨1, [("S", 0x17), ("V", 7)]⟩ := by decide

/-- Decimal operands of 95_test_vectors.md 2.2 and 2.4: -0.0, -5.0, 33.3 and 0.045. -/
theorem test_decimal_patterns :
    Decimal.pattern ⟨true, 0, 1⟩ = 0x80000000 ∧ Decimal.pattern ⟨true, 50, 1⟩ = 0xC0A00000
      ∧ Decimal.pattern ⟨false, 333, 1⟩ = 0x42053333 ∧ Decimal.pattern ⟨false, 45, 3⟩ = 0x3D3851EC := by
  decide +kernel

/-- A run is over when the program has ended and the sequencer is idle, and goes on while the program has accesses to
make or a command runs. -/
theorem test_run_end :
    hostRun [.halt] [.host] State.reset = .over ⟨0, []⟩ State.reset
    ∧ hostRun spinning [] State.reset = .going ⟨0, []⟩ State.reset
    ∧ runTurns [.halt] [] HostCtx.start (running State.reset .motorInit .s1 0)
        = .going ⟨0, []⟩ (running State.reset .motorInit .s1 0) := by decide

/-- A state with a command running, or with a conversion in flight, starts no run (R299); the reset state does. -/
theorem test_run_start :
    hostRun [.halt] [] (running State.reset .motorInit .s1 0) = .notAStart
    ∧ hostRun [.halt] [] (converted 3 false 0) = .notAStart ∧ State.reset.cleanEntry = true := by decide

/-- A run under a parameter set that breaks R10 is refused, with turns left and without. -/
theorem test_run_refused :
    let s : State := { State.reset with params := { Config.defaultParams with timerBits := 40 } }
    hostRun [.halt] [] s = .refused .parameterSet
      ∧ hostRun [.halt] [.block .sequencer, .host] s = .refused .parameterSet := by decide

/-! ## Witnesses: the hypotheses of the statements are met, each clause at the ends of its range -/

/-- Every micro-step label is the label of some running command's state: the `SEQ.STEP` hypotheses of the micro-step
and result statements. -/
theorem witness_every_label (i : Instr) (l : MicroStep) : (running State.reset i l 0).seq.step = some l := rfl

theorem witness_offsets_of_words :
    (0xFC < 256 ∧ 0xFC % 4 = 0 ∧ 0x0C ≤ 0xFC ∧ 0xA0 ≤ 0xFC) ∧ (0x0C < 256 ∧ 0x0C % 4 = 0 ∧ 0x0C ≤ 0x0C)
    ∧ (0x1C % 4 = 0) ∧ (0x28 % 4 = 0 ∧ 0x28 ≤ 0x3C) ∧ (0x3C % 4 = 0) ∧ 0xA0 % 4 = 0 := by decide

theorem witness_ResetPutsEveryFieldAtItsValue : 0 < 256 ∧ 0 % 4 = 0 ∧ 0xFC < 256 ∧ 0xFC % 4 = 0 := by decide

theorem witness_AfterResetOnlyTheHostActs :
    ∀ m ∈ [Move.sequencer, .converter .k1, .converter (.k3 4095), .tick .t2, .reset], isHostMove m = false := by decide

theorem witness_DecodedWordsEncodeBack :
    decode 0x00FF0F03 = .ok (.adcAvg 15 255) ∧ decode 0x0000FF11 = .ok (.pwmSetDuty 15 15)
      ∧ decode 0x00000031 = .ok (.servoSetAngle 0) := by decide

theorem witness_IllegalWordsAreTheSpecs :
    (runningWord State.reset 0x80000001 .s1 0).seq.mode = .run
    ∧ (runningWord State.reset 0x80000001 .s1 0).seq.step = some .s1
    ∧ decode 0x80000001 = .error .reservedFieldNonzero ∧ decode 0x00000000 = .error .unassignedOpcode
    ∧ decode 0x00000101 = .error .unusedFieldNonzero ∧ decode 0x00000001 = .ok .adcInit := by decide

theorem witness_EachWordMatchesAtMostOneRow :
    (∃ r ∈ commandRows, 0x00FF0903#32 &&& r.mask = r.fixed) ∧ ∀ r ∈ commandRows, 0#32 &&& r.mask ≠ r.fixed := by
  decide

/-- A running command with the sequencer next on the agenda, and a legal word. -/
theorem witness_StepRunsTheDecodedCommand :
    let s : State := { running State.reset (.pwmInit 3) .s1 0 with agenda := [.sequencer, .tick .t0] }
    paramsValid s.params = true ∧ s.agenda = .sequencer :: [.tick .t0] ∧ s.seq.mode = .run
      ∧ decode s.seq.cmd = .ok (.pwmInit 3) ∧ decode 0x00000310 = .ok (.pwmInit 3) := by decide

theorem witness_BrokenParameterSetsAreRefused :
    paramsValid Config.defaultParams = true ∧ paramsValid ⟨1000000, 65536000000, 36000000, 15⟩ = true
    ∧ paramsValid ⟨72000000, 36000000, 36000000, 32⟩ = true
    ∧ paramsValid ⟨0, 36000000, 36000000, 16⟩ = false ∧ paramsValid ⟨1500000, 36000000, 36000000, 16⟩ = false
    ∧ paramsValid ⟨72000000, 65537000000, 36000000, 16⟩ = false
    ∧ paramsValid ⟨72000000, 36000000, 36000000, 14⟩ = false
    ∧ paramsValid ⟨72000000, 36000000, 36000000, 33⟩ = false := by decide

theorem witness_CmdWriteIsAcceptedOrDropped :
    State.reset.seq.mode = .idle ∧ (running State.reset .adcInit .s7 0).seq.mode = .run := by decide

/-- A command that fails sets `ERR_STICKY`. -/
theorem witness_StatusRegister_error :
    ∃ t, (running State.reset .motorSetDeadband .s1 101).applyMove .sequencer = .next t
      ∧ (running State.reset .motorSetDeadband .s1 101).status.errSticky = false ∧ t.status.errSticky = true :=
  ⟨_, rfl, rfl, rfl⟩

/-- A `CMD` write to a running sequencer sets `OVR`. -/
theorem witness_StatusRegister_overrun :
    ∃ t, (running State.reset .adcInit .s7 0).applyMove (.host (.write (Config.aspaBase + 0) 4 5)) = .next t
      ∧ (running State.reset .adcInit .s7 0).status.ovr = false ∧ t.status.ovr = true :=
  ⟨_, State.applyMove_writeWord _ _ (by decide) (by decide), rfl, rfl⟩

/-- The host's read move hands over what the register holds. -/
theorem witness_HostReadsTheRegisterMap :
    ∃ t, ({ State.reset with arg := 0xDEADBEEF } : State).applyMove (.host (.read (Config.aspaBase + 0x04) 4)) = .next t
      ∧ t.hostRdata = 0xDEADBEEF :=
  ⟨_, State.applyMove_readWord _ (by decide) (by decide), rfl⟩

theorem witness_HostWritesActOnThreeRegisters : 0xFF < 256 ∧ 0xFF % 4 ≠ 0 ∧ 0x01 % 4 ≠ 0 := by decide

theorem witness_OtherAccessesAreBusErrors :
    (0 < 256 ∧ ((1 : Nat) ≠ 4 ∨ 0 % 4 ≠ 0)) ∧ (0xFF < 256 ∧ ((4 : Nat) ≠ 4 ∨ 0xFF % 4 ≠ 0))
      ∧ (0xFC < 256 ∧ ((2 : Nat) ≠ 4 ∨ 0xFC % 4 ≠ 0)) := by decide

theorem witness_ReadsAreIdleAndWritesIdempotent :
    ∃ t, State.reset.applyMove (.host (.read (Config.aspaBase + 0x08) 4)) = .next t :=
  ⟨_, State.applyMove_readWord _ (by decide) (by decide)⟩

theorem witness_HostCannotDisturbARunningCommand :
    (running State.reset .adcInit .s7 0).seq.mode = .run
    ∧ ∃ t, (running State.reset .adcInit .s7 0).applyMove (.host (.write (Config.aspaBase + 0x04) 4 7)) = .next t :=
  ⟨rfl, _, State.applyMove_writeWord _ _ (by decide) (by decide)⟩

theorem witness_AdcAvgMicroSteps :
    (running adcReady (.adcAvg 9 255) .s5 0).seq.step = some .s5 ∧ (255 : Byte) ≠ 0#8 ∧ (1 : Byte) ≠ 0#8 := by decide

theorem witness_AdcToVoltResult :
    (running State.reset .adcToVolt .s1 4095).seq.arg.toNat ≤ 4095
      ∧ 4095 < (running State.reset .adcToVolt .s1 4096).seq.arg.toNat
      ∧ 4095 < (running State.reset .adcToVolt .s1 0xFFFFFFFF).seq.arg.toNat := by decide

theorem witness_VoltageIsANearestBinary32 :
    0 ≤ 4095 ∧ expField 0x7F7FFFFF ≠ 0xFF#8 ∧ expField 0xFF7FFFFF ≠ 0xFF#8 ∧ expField 0x00000001 ≠ 0xFF#8 := by decide

theorem witness_VoltageIsMonotone : 0 ≤ 4095 ∧ 4094 ≤ 4095 ∧ 4095 ≤ 4095 := by decide

/-- The four waits of R137, with the smallest and the greatest budget and with none. -/
theorem witness_waits :
    ∀ n ∈ [0#32, 1#32, 0xFFFFFFFF#32],
      (∃ s i l, Waiting s i l ∧ s.timeout = n ∧ s.seq.polls = 0#32 ∧ i = .adcInit ∧ l = .s7)
      ∧ (∃ s i l, Waiting s i l ∧ s.timeout = n ∧ s.seq.polls = 0#32 ∧ i = .adcInit ∧ l = .s9)
      ∧ (∃ s i l, Waiting s i l ∧ s.timeout = n ∧ s.seq.polls = 0#32 ∧ i = .adcSample 9 ∧ l = .s3)
      ∧ ∃ s i l, Waiting s i l ∧ s.timeout = n ∧ s.seq.polls = 0#32 ∧ i = .adcAvg 0 1 ∧ l = .s4 := by
  intro n _
  refine ⟨⟨running { adcReady with timeout := n, adc := { readyAdc with rstcal := true } } .adcInit .s7 0, .adcInit, .s7,
      ⟨rfl, (by decide : decode (encode .adcInit) = .ok .adcInit), rfl, .inl ⟨rfl, rfl, rfl⟩⟩, rfl, rfl, rfl, rfl⟩,
    ⟨running { adcReady with timeout := n, adc := { readyAdc with cal := true } } .adcInit .s9 0, .adcInit, .s9,
      ⟨rfl, (by decide : decode (encode .adcInit) = .ok .adcInit), rfl, .inr (.inl ⟨rfl, rfl, rfl⟩)⟩, rfl, rfl, rfl, rfl⟩,
    ⟨running { converted 9 false 0 with timeout := n } (.adcSample 9) .s3 0, .adcSample 9, .s3,
      ⟨rfl, (by decide : decode (encode (.adcSample 9)) = .ok (.adcSample 9)), rfl, .inr (.inr (.inl ⟨9, rfl, rfl, rfl⟩))⟩, rfl, rfl, rfl, rfl⟩,
    ⟨running { converted 0 false 0 with timeout := n } (.adcAvg 0 1) .s4 0, .adcAvg 0 1, .s4,
      ⟨rfl, (by decide : decode (encode (.adcAvg 0 1)) = .ok (.adcAvg 0 1)), rfl, .inr (.inr (.inr ⟨0, 1, rfl, rfl, rfl⟩))⟩, rfl, rfl, rfl, rfl⟩⟩

theorem witness_UnboundedWaitCanHang :
    ∀ m ∈ [Move.sequencer, .tick .t0, .host (.write 0 4 1)], m ≠ .reset ∧ ∀ e, m ≠ .converter e := by
  intro m hm
  fin_cases hm <;> exact ⟨by decide, fun e h => by cases h⟩

theorem witness_AveragingComputesTheTruncatedMean :
    (let s := running adcReady (.adcAvg 9 255) .s1 0
     s.seq.mode = .run ∧ decode s.seq.cmd = .ok (.adcAvg 9 255) ∧ s.seq.step = some .s1
      ∧ s.adc.ready = true ∧ s.adc.adon = true)
    ∧ (9 : Sel).toNat ≤ 9 ∧ (255 : Byte) ≠ 0#8 ∧ (List.replicate 255 (4095#12)).length = (255 : Byte).toNat
    ∧ [777#12].length = (1 : Byte).toNat
    ∧ (List.replicate 255 (4095#12)).all (fun v => decide (4095 ≤ v.toNat ∧ v.toNat ≤ 4095)) = true := by
  decide +kernel

theorem witness_ConverterSteps :
    let s : State := { adcReady with adc := { readyAdc with rstcal := true, cal := true, pend := true } }
    s.adc.adon = true ∧ s.adc.rstcal = true ∧ s.adc.cal = true ∧ s.adc.pend = true := by decide

theorem witness_PwmInitMicroSteps :
    (3 ≤ (3 : Sel).toNat ∧ 3 ≤ (15 : Sel).toNat) ∧ (2 : Sel).toNat < 3 ∧ (2 : Sel).toNat = timerNum .t2
      ∧ (0 : Sel).toNat = timerNum .t0
    ∧ (let s := running State.reset (.pwmInit 2) .s2 16
       1 ≤ s.seq.arg.toNat ∧ s.seq.arg.toNat ≤ 1000000
        ∧ 1000000 / s.seq.arg.toNat - 1 ≤ 2 ^ s.params.timerBits - 2)
    ∧ (let s := running State.reset (.pwmInit 0) .s2 1000000
       1 ≤ s.seq.arg.toNat ∧ s.seq.arg.toNat ≤ 1000000
        ∧ 1000000 / s.seq.arg.toNat - 1 ≤ 2 ^ s.params.timerBits - 2) := by decide

theorem witness_PeriodOfAFrequency :
    periodOf 15 1000000 = .ok 0 ∧ periodOf 16 16 = .ok 62499 ∧ periodOf 32 1 = .ok 999999
      ∧ periodOf 16 15 = .error .configurationError ∧ periodOf 16 1000001 = .error .invalidArgument := by decide

/-- The operands of the PWM channel commands: each invalid selector at the ends of its range, and valid ones on a timer
that is ready and on one that is not. -/
theorem witness_pwm_channel_commands :
    3 ≤ (3 : Sel).toNat ∧ (0 : Sel).toNat < 1 ∧ 4 < (5 : Sel).toNat ∧ 4 < (15 : Sel).toNat
    ∧ (2 : Sel).toNat = timerNum .t2 ∧ (4 : Sel).toNat = chanNum .c4 ∧ (1 : Sel).toNat = chanNum .c1
    ∧ (running State.reset (.pwmSetDuty 2 4) .s1 0).tim2.ready = false
    ∧ (running timersReady (.pwmSetDuty 2 4) .s1 0).tim2.ready = true := by decide

/-- The operands of the duty and the angle laws: NaN, the infinities, and finite values below, inside and above the
range. -/
theorem witness_float_operands :
    isNaN 0x7FC00000 = true ∧ isNaN 0xFFC00001 = true
    ∧ [0x80000000#32, 0xC0A00000#32, 0x42480000#32, 0x42C80000#32, 0x43340000#32, 0x7F7FFFFF#32].all
        (fun f => expField f != 0xFF#8) = true
    ∧ finiteValue 0x80000000 ≤ 0 ∧ finiteValue 0xC0A00000 ≤ 0
    ∧ (0 ≤ finiteValue 0x42480000 ∧ finiteValue 0x42480000 ≤ 100) ∧ 100 ≤ finiteValue 0x42C80000
    ∧ 180 ≤ finiteValue 0x43340000 ∧ 180 ≤ finiteValue 0x7F7FFFFF := by decide +kernel

theorem witness_TimerTick :
    (∀ t, (timersReady.timer t).cen = true)
    ∧ timersReady.tim0.pscCnt.toNat < timersReady.tim0.pscAct.toNat
    ∧ (let t : Timer := { timersReady.tim0 with pscCnt := 71, cnt := 999 }
       ¬ t.pscCnt.toNat < t.pscAct.toNat ∧ t.arrAct.toNat ≤ t.cnt.toNat) :=
  ⟨fun t => by cases t <;> rfl, by decide, by decide⟩

theorem witness_DisabledMovesChangeNothing :
    State.reset.seq.mode = .idle ∧ (∀ t, (State.reset.timer t).cen = false) ∧ State.reset.adc.adon = false
      ∧ adcReady.adc.rstcal = false ∧ adcReady.adc.cal = false ∧ adcReady.adc.pend = false :=
  ⟨rfl, fun t => by cases t <;> rfl, rfl, rfl, rfl, rfl⟩

theorem witness_OutputPeriodLength :
    timersReady.tim0.cnt = 0#32 ∧ timersReady.tim0.pscCnt = 0#16
      ∧ 71999 < (timersReady.tim0.pscAct.toNat + 1) * (timersReady.tim0.arrAct.toNat + 1) := by decide

theorem witness_OutputDuty :
    let t := timersReady.tim0.setCce .c4 true
    (t.ch .c4).cce = true ∧ (t.ch .c4).pwm1 = true := by decide

theorem witness_MotorSetSpeedResult :
    (0 : Sel).toNat = 0 ∧ 2 < (3 : Sel).toNat ∧ (1 ≤ (1 : Sel).toNat ∧ (2 : Sel).toNat ≤ 2)
    ∧ (running State.reset (.motorSetSpeed 1) .s1 60).tim1.ready = false
    ∧ (running timersReady (.motorSetSpeed 1) .s1 60).tim1.ready = true
    ∧ chanNum .c1 = 2 * (1 : Sel).toNat - 1 ∧ chanNum .c2 = 2 * (1 : Sel).toNat
    ∧ chanNum .c3 = 2 * (2 : Sel).toNat - 1 ∧ chanNum .c4 = 2 * (2 : Sel).toNat
    ∧ encodeSpeed 5 (0xFFFFFFC4#32).toInt = (0, 60) ∧ encodeSpeed 5 (5#32).toInt = (0, 0) := by decide

theorem witness_MotorDutyLaw :
    encodeSpeed 0 100 = (100, 0) ∧ encodeSpeed 99 (-100) = (0, 100) ∧ encodeSpeed 100 100 = (0, 0)
      ∧ encodeSpeed 0 0 = (0, 0) ∧ encodeSpeed 0 2147483647 = (100, 0) ∧ encodeSpeed 0 (-2147483648) = (0, 100) := by
  decide

theorem witness_MotorStopResult : (running timersReady (.motorStop 2) .s1 0).seq.arg = 0#32 := rfl

theorem witness_MotorSetDeadbandResult :
    100 < (running State.reset .motorSetDeadband .s1 101).seq.arg.toNat
      ∧ (running State.reset .motorSetDeadband .s1 100).seq.arg.toNat ≤ 100 := by decide

theorem witness_ServoSetAngleResult :
    (running State.reset (.servoSetAngle 1) .s1 0).tim2.ready = false
      ∧ (running timersReady (.servoSetAngle 1) .s1 0).tim2.ready = true
      ∧ chanNum .c1 = (1 : Sel).toNat ∧ chanNum .c2 = (2 : Sel).toNat := by decide

theorem witness_SelectorsOutsideTheirDomainAreInvalid :
    10 ≤ (10 : Sel).toNat ∧ SelectorInvalid (.adcSample 10) ∧ SelectorInvalid (.adcAvg 0 0)
      ∧ SelectorInvalid (.pwmInit 3) ∧ SelectorInvalid (.pwmSetDuty 0 0) ∧ SelectorInvalid (.pwmStart 0 5)
      ∧ SelectorInvalid (.pwmStop 3 1) ∧ SelectorInvalid (.motorSetSpeed 0) ∧ SelectorInvalid (.motorStop 3)
      ∧ SelectorInvalid (.servoSetAngle 15) :=
  ⟨by decide, by show 10 ≤ _; decide, .inr rfl, by show 3 ≤ _; decide, .inr (.inl rfl), .inr (.inr (by decide)),
    .inl (by decide), .inl rfl, .inr (by decide), .inr (by decide)⟩

/-- Failures in S1 with each of the three codes. -/
theorem witness_FailureInS1ChangesNothingElse :
    (ran State.reset (.pwmInit 0) .s1 0 (fun t => !t.seq.busy && t.status.lastErr == 1)) = true
    ∧ (ran State.reset (.pwmInit 0) .s1 1 (fun t => !t.seq.busy && t.status.lastErr == 2)) = true
    ∧ (ran State.reset (.pwmStart 0 1) .s1 0 (fun t => !t.seq.busy && t.status.lastErr == 5)) = true := by decide

/-- For each clause of the frame with a changed field, a command that changes it. (What `PINLOG` gains is the OPEN pin
tables', so no witness can show it longer.) -/
theorem witness_CommandFrame :
    ran State.reset .adcToVolt .s1 4095 (fun t => t.result != 0) = true
    ∧ ran State.reset .adcSetTimeout .s1 1 (fun t => t.timeout != 0) = true
    ∧ ran State.reset .motorSetDeadband .s1 1 (fun t => t.deadband != 0) = true
    ∧ ran State.reset .adcInit .s6 0 (fun t => t.adc != Adc.reset) = true
    ∧ ran { converted 3 false 0 with timeout := 9 } (.adcSample 3) .s3 0 (fun t => t.seq.polls != 0) = true
    ∧ ran (converted 3 true 7) (.adcAvg 3 4) .s4 0 (fun t => t.seq.acc != 0 && t.seq.k != 0 && t.seq.val != 0) = true
    ∧ ran State.reset (.pwmInit 2) .s2 50 (fun t => t.tim2 != Timer.reset) = true
    ∧ ran State.reset .motorInit .s3 0 (fun t => t.tim1 != Timer.reset) = true
    ∧ ran State.reset .servoInit .s3 0 (fun t => t.tim2 != Timer.reset) = true := by decide +kernel

/-- A micro-step that goes on, one that completes its command, one that ends it with an error, and another agent's
move. -/
theorem witness_CommandsEndByCompleteOrRaise :
    ran State.reset .motorInit .s1 0 (fun t => t.seq.busy) = true
    ∧ ran State.reset .adcSetTimeout .s1 1 (fun t => !t.seq.busy && t.status.lastErr == 0) = true
    ∧ ran State.reset (.adcSample 0) .s1 0 (fun t => !t.seq.busy && t.status.lastErr == 5) = true
    ∧ answers (timersReady.applyMove (.tick .t0)) (fun t => t != timersReady) = true := by decide

theorem witness_OnlyResetStopsAUnit :
    (answers ({ timersReady with adc := readyAdc }.applyMove (.tick .t0)) fun _ => true) = true
    ∧ readyAdc.adon = true ∧ timersReady.tim2.cen = true ∧ timersReady.tim2.ready = true := by decide

theorem witness_OnlyTheLatchedOperandIsRead :
    ∀ i ∈ [Instr.adcInit, .adcSample 9, .adcAvg 9 1, .pwmStart 0 1, .pwmStop 0 1, .motorInit, .motorStop 2, .servoInit],
      readsOperand i = false := by decide

/-! ## States that meet the invariant -/

/-- The invariant of a state with the default parameters and small fields, from its parts. -/
theorem blockInv_of {s : State} (hp : s.params = Config.defaultParams)
    (ht : ∀ t, TimerInv 16 (pscVal Config.defaultParams t) (s.timer t)) (ha : AdcInv s.adc) (hs : seqInv s)
    (he : s.status.lastErr.toNat ≤ 5) (hd : s.deadband.toNat ≤ 100) : BlockInv s :=
  ⟨by rw [hp]; decide, fun t => by rw [hp]; exact ht t, ha, hs, he, hd⟩

theorem timers_reset {s : State} (h : ∀ t, s.timer t = Timer.reset) (p : TimerId → Nat) (t : TimerId) :
    TimerInv 16 (p t) (s.timer t) := by
  rw [h]
  exact TimerInv.of_reset (by decide)

/-- A command that does not wait, running from reset. -/
theorem inv_motorInit : BlockInv (running State.reset .motorInit .s1 0) := by
  refine blockInv_of rfl (timers_reset (fun t => by cases t <;> rfl) _) ⟨by decide, by decide, by decide, by decide,
    by decide⟩ ?_ (by decide) (by decide)
  rw [seqInv_run rfl (i := .motorInit) rfl]
  exact ⟨rfl, .s1, rfl, rfl, ⟨rfl, rfl⟩, by decide⟩

/-- A state of a `PWM_INIT` about to start a stopped timer. -/
def startingTimer : State := running State.reset (.pwmInit 0) .s2 1000

theorem inv_startingTimer : BlockInv startingTimer := by
  refine blockInv_of rfl (timers_reset (fun t => by cases t <;> rfl) _) ⟨by decide, by decide, by decide, by decide,
    by decide⟩ ?_ (by decide) (by decide)
  rw [seqInv_run rfl (i := .pwmInit 0) rfl]
  exact ⟨rfl, .s2, rfl, rfl, ⟨rfl, rfl⟩, fun _ => ⟨.t0, 999, rfl, rfl⟩⟩

/-- A state whose motor timer is at the end of its period, with a new compare value waiting in a preload. -/
def wrappingTimer : State :=
  { running State.reset .adcSetTimeout .s1 0 with
    tim1 := { (Timer.reset.configure 35 999).writeCcr .c1 600 with cnt := 999, pscCnt := 35 } }

theorem inv_wrappingTimer : BlockInv wrappingTimer := by
  refine blockInv_of rfl (fun t => ?_) ⟨by decide, by decide, by decide, by decide, by decide⟩ ?_ (by decide)
    (by decide)
  · cases t
    · exact TimerInv.of_reset (by decide)
    · refine ⟨by decide, fun _ => ⟨rfl, rfl, fun c => ?_⟩, fun _ => by decide, by decide, by decide, by decide,
        by decide, fun c => ?_⟩
      · cases c <;> decide
      · cases c <;> decide
    · exact TimerInv.of_reset (by decide)
  · rw [seqInv_run rfl (i := .adcSetTimeout) rfl]
    exact ⟨rfl, .s1, rfl, rfl, rfl, rfl⟩

/-- A waiting command with the budget `n` and its conversion in flight. -/
def waitingSample (n : Word) : State := running { converted 3 false 0 with timeout := n } (.adcSample 3) .s3 0

theorem inv_waitingSample (n : Word) (h : n = 0 ∨ 0 < n.toNat) : BlockInv (waitingSample n) := by
  have ha : AdcInv (converted 3 false 0).adc := ⟨by decide, by decide, by decide, by decide, by decide⟩
  refine blockInv_of rfl (timers_reset (fun t => by cases t <;> rfl) _) ha ?_ (Nat.zero_le 5) (Nat.zero_le 100)
  rw [seqInv_run rfl (by decide : decode (encode (.adcSample 3)) = .ok (.adcSample 3))]
  exact ⟨rfl, .s3, rfl, rfl, fun _ => ⟨(by decide : (3 : Sel).toNat ≤ 9), rfl⟩, fun _ => ⟨rfl, rfl, h⟩,
    fun hl => absurd rfl hl⟩

/-- An averaging command of one sample about to start with the budget `n`. -/
def startingAvg (n : Word) : State := running { adcReady with timeout := n } (.adcAvg 3 1) .s1 0

theorem inv_startingAvg (n : Word) : BlockInv (startingAvg n) := by
  have ha : AdcInv readyAdc := ⟨by decide, by decide, by decide, by decide, by decide⟩
  refine blockInv_of rfl (timers_reset (fun t => by cases t <;> rfl) _) ha ?_ (Nat.zero_le 5) (Nat.zero_le 100)
  rw [seqInv_run rfl (by decide : decode (encode (.adcAvg 3 1)) = .ok (.adcAvg 3 1))]
  exact ⟨rfl, .s1, rfl, rfl, fun hl => absurd rfl hl, fun hl => absurd hl (by decide),
    fun hl => absurd hl (by decide), fun _ => ⟨rfl, rfl⟩, fun hl => absurd hl (by decide)⟩

/-- The moves of an averaging command with a failed poll and a timer's move before its conversion is done. -/
def averagedMoves : List Move :=
  [.sequencer, .sequencer, .sequencer, .sequencer, .tick .t0, .converter (.k3 777), .sequencer, .sequencer]

/-- The general clause of the averaging statement: a run that succeeds with a failed poll, and one that times out. -/
theorem witness_AveragingUnderAnySchedule :
    (BlockInv (startingAvg 0) ∧ (∀ m ∈ averagedMoves, m ≠ .reset)
      ∧ (∀ k < 8, answers (runMoves (averagedMoves.take k) (startingAvg 0)) (fun u => u.seq.busy) = true)
      ∧ answers (runMoves averagedMoves (startingAvg 0)) (fun t => !t.seq.busy && t.result == 777) = true
      ∧ drawsOf averagedMoves (startingAvg 0) = [777])
    ∧ BlockInv (startingAvg 1)
      ∧ answers (runMoves (averagedMoves.take 4) (startingAvg 1))
          (fun t => !t.seq.busy && t.status.lastErr == 3 && t.seq.polls == 1) = true :=
  ⟨⟨inv_startingAvg 0, by decide, by decide, by decide, by decide⟩, inv_startingAvg 1, by decide⟩

/-- A tick that wraps, and a `PWM_INIT` that starts a stopped timer, both change active copies. -/
theorem witness_ActiveCopiesChangeOnlyAtUpdates :
    BlockInv wrappingTimer ∧ BlockInv startingTimer
    ∧ (∃ t, wrappingTimer.applyMove (.tick .t1) = .next t
        ∧ ((t.timer .t1).ch .c1).ccrAct ≠ ((wrappingTimer.timer .t1).ch .c1).ccrAct
        ∧ (t.timer .t1).pscCnt ≠ (wrappingTimer.timer .t1).pscCnt)
    ∧ ∃ t, startingTimer.applyMove .sequencer = .next t ∧ (t.timer .t0).pscAct ≠ (startingTimer.timer .t0).pscAct :=
  ⟨inv_wrappingTimer, inv_startingTimer, ⟨_, rfl, by decide, by decide⟩, ⟨_, rfl, by decide⟩⟩

/-- A step of a state with a nonzero motor compare value. -/
theorem witness_MotorInterlockIsKept :
    ∃ s t : State, BlockInv s ∧ Interlock s ∧ ¬ (s.nextMove.1 = .sequencer ∧ drivesMotorTimer s) ∧ step s = .next t := by
  refine ⟨{ wrappingTimer with agenda := [.tick .t1] }, _, ?_, ?_, ?_, rfl⟩
  · exact ⟨inv_wrappingTimer.params, inv_wrappingTimer.timers, inv_wrappingTimer.adc, inv_wrappingTimer.seq,
      inv_wrappingTimer.lastErr, inv_wrappingTimer.deadband⟩
  · intro a
    cases a
    · exact ⟨.inr rfl, .inl rfl⟩
    · exact ⟨.inl rfl, .inl rfl⟩
  · rintro ⟨h, _⟩
    cases h

theorem witness_StepKeepsTheInvariant :
    ∃ s t : State, BlockInv s ∧ step s = .next t ∧ t ≠ s :=
  ⟨{ wrappingTimer with agenda := [.tick .t1] }, _,
    ⟨inv_wrappingTimer.params, inv_wrappingTimer.timers, inv_wrappingTimer.adc, inv_wrappingTimer.seq,
      inv_wrappingTimer.lastErr, inv_wrappingTimer.deadband⟩, rfl, by decide⟩

theorem witness_OtherCommandsEndWithinFiveSteps :
    BlockInv (running State.reset .motorInit .s1 0) ∧ (running State.reset .motorInit .s1 0).seq.mode = .run
      ∧ decode (running State.reset .motorInit .s1 0).seq.cmd = .ok .motorInit ∧ waits .motorInit = false :=
  ⟨inv_motorInit, rfl, rfl, rfl⟩

theorem witness_BudgetBoundsEveryCommand :
    BlockInv (waitingSample 1) ∧ (waitingSample 1).seq.mode = .run ∧ (waitingSample 1).timeout ≠ 0#32
      ∧ (∀ m ∈ List.replicate 768 Move.sequencer, m ≠ .reset)
      ∧ 256 * ((waitingSample 1).timeout.toNat + 2) ≤ (List.replicate 768 Move.sequencer).count .sequencer := by
  refine ⟨inv_waitingSample 1 (.inr (by decide)), rfl, by decide, fun m hm => ?_, ?_⟩
  · rw [List.eq_of_mem_replicate hm]
    decide
  · rw [List.count_replicate_self]
    decide

/-! ## A fair run (R291): a waiting command, the converter's K3, then the sequencer for good -/

/-- The moves of the run. -/
def fairMoves : Nat → Move
  | 0 => .converter (.k3 777)
  | _ + 1 => .sequencer

/-- The states of the run: in flight, finished, taken, completed. -/
def fairStates : Nat → State
  | 0 => waitingSample 0
  | 1 => (waitingSample 0).converterMove (.k3 777)
  | 2 => (((waitingSample 0).converterMove (.k3 777)).takeReading).goto .s4
  | _ + 3 => (((((waitingSample 0).converterMove (.k3 777)).takeReading).goto .s4).setResult 777).complete

theorem witness_LiveConverterEndsEveryCommand :
    FairRun true fairMoves fairStates ∧ BlockInv (fairStates 0) ∧ (fairStates 0).seq.mode = .run := by
  refine ⟨⟨?_, ?_, ?_, fun _ => ⟨?_, ?_, ?_⟩⟩, inv_waitingSample 0 (.inl rfl), rfl⟩
  · intro n
    match n with
    | 0 => rfl
    | 1 => rfl
    | 2 => rfl
    | k + 3 => rfl
  · exact fun n _ => ⟨n + 1, by omega, rfl⟩
  · intro t n h
    have h' := h (n + 3) (by omega)
    cases t <;> cases h'
  · intro n h
    cases h (n + 3) (by omega)
  · intro n h
    cases h (n + 3) (by omega)
  · intro n h
    cases h (n + 3) (by omega)

end Sys2Proof.Tests
end

section
/-! A step under a decoded command word (R250, R255), and the refusal of parameter sets that break R10. -/

namespace Sys2Proof.Machine

open Sys2Proof.Claims

/-! ## The step of a running sequencer -/

/-- When the sequencer heads the agenda of a running state, the step is the meaning of the word it holds. -/
theorem step_sequencer_run {s : State} {i : Instr} {rest : List Move} (hp : paramsValid s.params = true)
    (ha : s.agenda = .sequencer :: rest) (hm : s.seq.mode = .run) (hd : decode s.seq.cmd = .ok i) :
    step s = exec i { s with agenda := rest } := by
  rw [step_eq_applyMove hp, State.nextMove_cons ha]
  exact State.sequencerStep_run hm hd

/-- Placing a command word accepts it and puts the sequencer next (R250, log entry 11). -/
theorem State.withFetchWord_eq (s : State) (w : Word) :
    s.withFetchWord 32 w.toNat = { s.accept w with agenda := .sequencer :: s.agenda } := by
  have hw : BitVec.ofNat 32 (w.toNat % 2 ^ 32) = w := by
    rw [Nat.mod_eq_of_lt w.isLt, BitVec.ofNat_toNat, BitVec.setWidth_eq]
  rw [State.withFetchWord, State.withCommand, hw]

/-- Settles O8: both forms are the step of a running sequencer, the second in the state the acceptance leaves. -/
theorem stepRunsTheDecodedCommand : Obligations.StepRunsTheDecodedCommand := by
  refine ⟨fun s i rest hp ha hm hd => step_sequencer_run hp ha hm hd, fun s w i hp hd => ?_⟩
  rw [State.withFetchWord_eq]
  exact step_sequencer_run (s := { s.accept w with agenda := .sequencer :: s.agenda }) hp rfl rfl hd

/-! ## The parameter check is R10's -/

theorem paramsValid_iff_legalParams (p : Params) : paramsValid p = true ↔ LegalParams p := by
  constructor
  · exact fun h => ⟨paramsValid_clk h, paramsValid_bits h⟩
  · rintro ⟨hclk, hlo, hhi⟩
    have hvalid : ∀ t, clkValid (clkHz p t) = true := fun t => by
      obtain ⟨hpos, hmul, hpsc⟩ := hclk t
      simp [clkValid, Config.tickHz, Config.pscBits, hpos, hmul]
      omega
    have h0 : clkValid p.clkHz0 = true := hvalid .t0
    have h1 : clkValid p.clkHz1 = true := hvalid .t1
    have h2 : clkValid p.clkHz2 = true := hvalid .t2
    simp [paramsValid, h0, h1, h2, hlo, hhi]

/-! ## Every move keeps the parameter set -/

@[simp] theorem State.writeReg_params (s : State) (w : Word) (r : Reg) : (s.writeReg w r).params = s.params := by
  rcases s.writeReg_cases w r with ⟨_, h⟩ | ⟨_, h⟩ | h | h | h <;> simp [h]

theorem State.memWrite_params {s t : State} {a n : Nat} {w : Word} (h : s.memWrite a n w = .done t) :
    t.params = s.params := by
  unfold State.memWrite at h
  split at h
  · cases h
  · split at h <;> cases h
    exact State.writeReg_params ..

theorem State.hostStep_params {s t : State} {a : HostAccess} (h : s.hostStep a = .next t) : t.params = s.params := by
  rcases State.hostStep_next h with rfl | ⟨v, rfl⟩ | ⟨w, r, rfl⟩
  · rfl
  · rfl
  · exact State.writeReg_params ..

@[simp] theorem State.accumulate_params (s : State) (times : Byte) : (s.accumulate times).params = s.params := rfl

theorem ExecShape.params_eq {i : Instr} {s t : State} (h : ExecShape i s t) : t.params = s.params := by
  cases h <;> simp

theorem State.sequencerStep_params {s t : State} (h : s.sequencerStep = .next t) : t.params = s.params := by
  rcases State.sequencerStep_next h with ⟨_, rfl⟩ | ⟨_, i, _, he⟩ | ⟨_, _, _, rfl⟩
  · rfl
  · exact (exec_shape he).params_eq
  · rfl

theorem State.applyMove_params {s t : State} {m : Move} (h : s.applyMove m = .next t) : t.params = s.params := by
  cases m with
  | host a => exact State.hostStep_params h
  | sequencer => exact State.sequencerStep_params h
  | converter e => cases h; rfl
  | tick t => cases h; exact State.tickMove_params s t
  | reset => cases h; rfl

/-! ## No move is refused -/

/-- No arm of `exec` writes a refusal on any of its branches. -/
theorem exec_not_refused (i : Instr) (s : State) (r : Refusal) : exec i s ≠ .refused r := by
  intro h
  cases i
  all_goals
    simp only [exec, execAdcInit, execAdcSample, execAdcAvg, execAdcToVolt, execAdcSetTimeout, execPwmInit,
      execPwmSetDuty, execPwmStart, execPwmStop, execMotorInit, execMotorSetSpeed, execMotorStop, execMotorSetDeadband,
      execServoInit, execServoSetAngle] at h
    repeat' split at h
  all_goals cases h

theorem State.sequencerStep_not_refused (s : State) (r : Refusal) : s.sequencerStep ≠ .refused r := by
  intro h
  unfold State.sequencerStep at h
  split at h
  · cases h
  · split at h
    · exact exec_not_refused _ s r h
    · unfold State.rejectIllegal at h
      split at h <;> cases h

theorem State.applyMove_not_refused (s : State) (m : Move) (r : Refusal) : s.applyMove m ≠ .refused r := by
  cases m with
  | host a => exact s.hostStep_not_refused a r
  | sequencer => exact s.sequencerStep_not_refused r
  | converter e => exact nofun
  | tick t => exact nofun
  | reset => exact nofun

/-! ## Steps and runs are refused exactly under a parameter set that breaks R10 -/

theorem step_refused_iff (s : State) : step s = .refused .parameterSet ↔ ¬ paramsValid s.params = true := by
  constructor
  · intro h hp
    rw [step_eq_applyMove hp] at h
    exact State.applyMove_not_refused _ _ _ h
  · intro hp
    simp [step, State.machineStep, hp]

/-- A host turn keeps the parameter set, whether the program goes on or has ended. -/
theorem hostTurn_params {p : List Stmt} {h h' : HostCtx} {s s' : State}
    (ht : hostTurn p h s = .go h' s' ∨ hostTurn p h s = .ended h' s') : s'.params = s.params := by
  unfold hostTurn at ht
  split at ht
  · rcases ht with ht | ht <;> cases ht; rfl
  · next a _ =>
    cases a <;> simp only [hostAccess] at ht <;> split at ht <;> rcases ht with ht | ht <;> cases ht
    · rfl
    · exact State.memWrite_params ‹_›
    · rfl
    · rfl
  · rcases ht with ht | ht <;> cases ht; rfl
  · rcases ht with ht | ht <;> cases ht

/-- No run under a legal parameter set is refused: no turn is, and every turn keeps the set. -/
theorem runTurns_not_refused (p : List Stmt) (ts : List Turn) (h : HostCtx) (s : State) (r : Refusal)
    (hp : paramsValid s.params = true) : runTurns p ts h s ≠ .refused r := by
  induction ts generalizing h s with
  | nil =>
    rw [runTurns_nil hp]
    split <;> exact nofun
  | cons t ts ih =>
    cases t with
    | host =>
      rw [runTurns_host hp]
      split
      · next h' s' ht => exact ih h' s' (by rwa [hostTurn_params (.inl ht)])
      · next h' s' ht => exact ih h' s' (by rwa [hostTurn_params (.inr ht)])
      · exact nofun
      · exact nofun
    | block m =>
      rw [runTurns_block hp]
      split
      · next s' hm => exact ih h s' (by rwa [State.applyMove_params hm])
      · exact nofun
      · next r' hm => exact absurd hm (State.applyMove_not_refused _ _ _)

theorem runTurns_refused_iff (p : List Stmt) (ts : List Turn) (h : HostCtx) (s : State) :
    runTurns p ts h s = .refused .parameterSet ↔ ¬ paramsValid s.params = true := by
  constructor
  · exact fun hr hp => runTurns_not_refused p ts h s _ hp hr
  · intro hp
    rw [runTurns.eq_def, if_neg hp]

/-- The parameters with no override meet their constraints of R10 (log entries 7 and 18). -/
theorem fixedParams_legal :
    Config.sysclkHz / Config.adcDiv ≤ Config.adcClkMaxHz ∧ 20 ≤ Config.accBits
      ∧ Config.motorTimer ≠ Config.servoTimer ∧ 1 ≤ Config.adcDiv ∧ Config.adcDiv ≤ 15 :=
  ⟨Nat.le_add_right _ _, by decide, by decide, by decide, by decide⟩

/-- Settles O9: a legal set is kept by every turn and no move is refused, so the check is the only source of a
refusal. -/
theorem brokenParameterSetsAreRefused : Obligations.BrokenParameterSetsAreRefused := by
  refine ⟨fun s => ?_, fun p ts h s => ?_, fixedParams_legal⟩
  · rw [step_refused_iff, paramsValid_iff_legalParams]
  · rw [runTurns_refused_iff, paramsValid_iff_legalParams]

end Sys2Proof.Machine
end

section
/-! `rne32` rounds to a nearest binary32 value (R14). A finite pattern is read as a signed whole number of units
`2 ^ -149`; at the exponent chosen by `binadeShifted` every pattern is either a multiple of the spacing there or lies
below the binade, so rounding to the nearest multiple of the spacing is rounding to the nearest pattern. -/

namespace Sys2Proof.Machine

/-! ## A finite pattern in units of the least subnormal -/

/-- The magnitude of the pattern with exponent and fraction bits `b`, in units of `2 ^ -149`. -/
def magUnits (b : Nat) : Nat :=
  if b / 2 ^ 23 = 0 then b % 2 ^ 23 else (2 ^ 23 + b % 2 ^ 23) * 2 ^ (b / 2 ^ 23 - 1)

/-- The value of a finite pattern, in units of `2 ^ -149`. -/
def finiteUnits (f : Word) : Int :=
  if signField f then -(magUnits (f.toNat % 2 ^ 31) : Int) else magUnits (f.toNat % 2 ^ 31)

theorem expField_toNat (f : Word) : (expField f).toNat = f.toNat % 2 ^ 31 / 2 ^ 23 := by
  simp only [expField, BitVec.extractLsb'_toNat, Nat.shiftRight_eq_div_pow]
  omega

theorem fracField_toNat (f : Word) : (fracField f).toNat = f.toNat % 2 ^ 31 % 2 ^ 23 := by
  simp only [fracField, BitVec.extractLsb'_toNat, Nat.shiftRight_zero]
  omega

theorem signField_eq_decide (f : Word) : signField f = decide (2 ^ 31 ≤ f.toNat) := by
  rw [signField, ← BitVec.msb_eq_getLsbD_last, BitVec.msb_eq_decide]

theorem magUnits_div (b : Nat) :
    (magUnits b : Rat) / 2 ^ 149 =
      if b / 2 ^ 23 = 0 then ((b % 2 ^ 23 : Nat) : Rat) / 2 ^ 149
      else ((2 ^ 23 + b % 2 ^ 23 : Nat) : Rat) * 2 ^ (b / 2 ^ 23) / 2 ^ 150 := by
  unfold magUnits
  split
  · rfl
  · next he =>
    have hpow : (2 : Rat) ^ (b / 2 ^ 23) = 2 * 2 ^ (b / 2 ^ 23 - 1) := by
      rw [← pow_succ', Nat.sub_add_cancel (Nat.pos_of_ne_zero he)]
    rw [hpow]
    push_cast
    ring

theorem finiteValue_eq_finiteUnits (f : Word) : finiteValue f = (finiteUnits f : Rat) / 2 ^ 149 := by
  have hzero : expField f = 0#8 ↔ f.toNat % 2 ^ 31 / 2 ^ 23 = 0 := by
    rw [← expField_toNat, ← BitVec.toNat_inj, BitVec.toNat_ofNat]
  simp only [finiteValue, finiteUnits, hzero, expField_toNat, fracField_toNat, ← magUnits_div]
  split
  · push_cast
    ring
  · rfl

/-- Exponent and significand combined by addition: a significand of `2 ^ 24` carries into the exponent. -/
theorem magUnits_pack {e m : Nat} (hlo : e = 0 ∨ 2 ^ 23 ≤ m) (hhi : m ≤ 2 ^ 24) :
    magUnits (e * 2 ^ 23 + m) = m * 2 ^ e := by
  unfold magUnits
  rcases lt_or_ge m (2 ^ 23) with hm | hm
  · obtain rfl : e = 0 := by omega
    rw [if_pos (by omega), pow_zero]
    omega
  · rcases hhi.eq_or_lt with rfl | hlt
    · have hdiv : (e * 2 ^ 23 + 2 ^ 24) / 2 ^ 23 = e + 2 := by omega
      have hmod : (e * 2 ^ 23 + 2 ^ 24) % 2 ^ 23 = 0 := by omega
      rw [hdiv, hmod, if_neg (by omega), Nat.add_succ_sub_one, pow_succ]
      ring
    · have hdiv : (e * 2 ^ 23 + m) / 2 ^ 23 = e + 1 := by omega
      have hmod : 2 ^ 23 + (e * 2 ^ 23 + m) % 2 ^ 23 = m := by omega
      rw [hdiv, hmod, if_neg (by omega), Nat.add_sub_cancel]

/-- From the spacing `2 ^ e` on, patterns are multiples of it; finer patterns lie below the binade of that spacing. -/
theorem dvd_magUnits_or_lt (e b : Nat) : 2 ^ e ∣ magUnits b ∨ magUnits b < 2 ^ 23 * 2 ^ e := by
  unfold magUnits
  have hfrac : b % 2 ^ 23 < 2 ^ 23 := Nat.mod_lt _ (by norm_num)
  split
  · exact .inr (hfrac.trans_le (Nat.le_mul_of_pos_right _ (by positivity)))
  · next h0 =>
    rcases lt_or_ge e (b / 2 ^ 23) with he | he
    · exact .inl (Dvd.dvd.mul_left (pow_dvd_pow 2 (by omega)) _)
    · right
      calc (2 ^ 23 + b % 2 ^ 23) * 2 ^ (b / 2 ^ 23 - 1)
          < 2 ^ 24 * 2 ^ (b / 2 ^ 23 - 1) := Nat.mul_lt_mul_of_pos_right (by omega) (by positivity)
        _ = 2 ^ 23 * 2 ^ (b / 2 ^ 23 - 1 + 1) := by ring
        _ ≤ 2 ^ 23 * 2 ^ e := Nat.mul_le_mul_left _ (Nat.pow_le_pow_right (by norm_num) (by omega))

theorem dvd_finiteUnits_or_lt (e : Nat) (f : Word) :
    (2 ^ e : Int) ∣ finiteUnits f ∨ finiteUnits f < 2 ^ 23 * 2 ^ e := by
  have hcast : (2 ^ e : Int) ∣ magUnits (f.toNat % 2 ^ 31)
      ∨ (magUnits (f.toNat % 2 ^ 31) : Int) < 2 ^ 23 * 2 ^ e := by
    exact_mod_cast dvd_magUnits_or_lt e (f.toNat % 2 ^ 31)
  unfold finiteUnits
  split
  · have hpos : (0 : Int) < 2 ^ 23 * 2 ^ e := by positivity
    exact .inr (by omega)
  · exact hcast

/-! ## Rounding to the nearest integer -/

/-- Rounding goes down on a remainder of at most half the divisor and up on one of at least half. -/
theorem roundTiesEven_cases (n d : Nat) :
    (roundTiesEven n d = n / d ∧ 2 * (n % d) ≤ d) ∨ (roundTiesEven n d = n / d + 1 ∧ d ≤ 2 * (n % d)) := by
  unfold roundTiesEven
  rcases lt_trichotomy (2 * (n % d)) d with h | h | h
  · exact .inl ⟨if_pos h, h.le⟩
  · by_cases heven : n / d % 2 = 0 <;> simp [h, heven]
  · exact .inr ⟨by simp [h, h.not_gt], h.le⟩

theorem roundTiesEven_within_half (n : Nat) {d : Nat} (hd : 0 < d) :
    2 * n ≤ 2 * (d * roundTiesEven n d) + d ∧ 2 * (d * roundTiesEven n d) ≤ 2 * n + d := by
  have hdiv : d * (n / d) + n % d = n := Nat.div_add_mod n d
  have hmod : n % d < d := Nat.mod_lt n hd
  rcases roundTiesEven_cases n d with ⟨h, hr⟩ | ⟨h, hr⟩ <;> rw [h]
  · omega
  · rw [Nat.mul_succ]
    omega

/-- No integer is nearer to the quotient. -/
theorem roundTiesEven_nearest (n : Nat) {d : Nat} (hd : 0 < d) (k : Int) :
    |(roundTiesEven n d : Rat) - n / d| ≤ |k - (n : Rat) / d| := by
  have hhalf : |(roundTiesEven n d : Rat) - n / d| ≤ 1 / 2 := by
    have hd' : (0 : Rat) < d := by exact_mod_cast hd
    obtain ⟨hlo, hhi⟩ := roundTiesEven_within_half n hd
    have hlo' : (2 * n : Rat) ≤ 2 * (d * roundTiesEven n d) + d := by exact_mod_cast hlo
    have hhi' : (2 * (d * roundTiesEven n d) : Rat) ≤ 2 * n + d := by exact_mod_cast hhi
    rw [abs_le]
    constructor
    · rw [neg_le_sub_iff_le_add, div_le_iff₀ hd']
      linarith
    · rw [sub_le_iff_le_add, ← sub_le_iff_le_add', le_div_iff₀ hd']
      linarith
  by_cases hk : k = roundTiesEven n d
  · rw [hk, Int.cast_natCast]
  · have hone : (1 : Rat) ≤ |(k : Rat) - roundTiesEven n d| := by
      exact_mod_cast Int.one_le_abs (sub_ne_zero.mpr hk)
    have htri := abs_sub_le (k : Rat) (n / d) (roundTiesEven n d)
    rw [abs_sub_comm ((n : Rat) / d)] at htri
    linarith

theorem roundTiesEven_le {n d k : Nat} (hd : 0 < d) (h : n ≤ d * k) : roundTiesEven n d ≤ k := by
  have hhi := (roundTiesEven_within_half n hd).2
  by_contra hk
  have hmul : d * (k + 1) ≤ d * roundTiesEven n d := Nat.mul_le_mul_left d (by omega)
  rw [Nat.mul_succ] at hmul
  omega

theorem le_roundTiesEven {n d k : Nat} (hd : 0 < d) (h : d * k ≤ n) : k ≤ roundTiesEven n d := by
  have hlo := (roundTiesEven_within_half n hd).1
  by_contra hk
  have hmul : d * (roundTiesEven n d + 1) ≤ d * k := Nat.mul_le_mul_left d (by omega)
  rw [Nat.mul_succ] at hmul
  omega

/-! ## The binade of a rational -/

/-- The exponent is the greatest one whose binade starts at or below `n / d`, unless it is the least one. -/
theorem binadeShifted_spec {n d : Nat} (hn : 0 < n) (hd : 0 < d) :
    (binadeShifted n d = 0 ∨ d * 2 ^ binadeShifted n d ≤ n * 2 ^ 126)
    ∧ n * 2 ^ 126 < d * 2 ^ (binadeShifted n d + 1) := by
  have hnlo : 2 ^ n.log2 ≤ n := Nat.log2_self_le hn.ne'
  have hnhi : n < 2 ^ (n.log2 + 1) := Nat.lt_log2_self
  have hdlo : 2 ^ d.log2 ≤ d := Nat.log2_self_le hd.ne'
  have hdhi : d < 2 ^ (d.log2 + 1) := Nat.lt_log2_self
  unfold binadeShifted
  generalize hl : n.log2 + 126 - d.log2 = lo
  simp only
  split
  · next hlt =>
    cases lo with
    | zero => exact ⟨.inl rfl, hlt.trans_le (Nat.mul_le_mul_left _ (by norm_num))⟩
    | succ l =>
      refine ⟨.inr ?_, hlt⟩
      calc d * 2 ^ l ≤ 2 ^ (d.log2 + 1) * 2 ^ l := Nat.mul_le_mul_right _ hdhi.le
        _ = 2 ^ n.log2 * 2 ^ 126 := by rw [← pow_add, ← pow_add]; congr 1; omega
        _ ≤ n * 2 ^ 126 := Nat.mul_le_mul_right _ hnlo
  · next hge =>
    refine ⟨.inr (not_lt.mp hge), ?_⟩
    calc n * 2 ^ 126 < 2 ^ (n.log2 + 1) * 2 ^ 126 := Nat.mul_lt_mul_of_pos_right hnhi (by norm_num)
      _ ≤ 2 ^ d.log2 * 2 ^ (lo + 1) := by
        rw [← pow_add, ← pow_add]
        exact Nat.pow_le_pow_right (by norm_num) (by omega)
      _ ≤ d * 2 ^ (lo + 1) := Nat.mul_le_mul_right _ hdlo

/-- Below `2 ^ 127` the exponent leaves room for the significand under the infinities. -/
theorem binadeShifted_le {n d : Nat} (hn : 0 < n) (hd : 0 < d) (hmax : n < d * 2 ^ 127) :
    binadeShifted n d ≤ 252 := by
  rcases (binadeShifted_spec hn hd).1 with h0 | hle
  · omega
  · have hlt : d * 2 ^ binadeShifted n d < d * 2 ^ 253 := by
      calc d * 2 ^ binadeShifted n d ≤ n * 2 ^ 126 := hle
        _ < d * 2 ^ 127 * 2 ^ 126 := Nat.mul_lt_mul_of_pos_right hmax (by norm_num)
        _ = d * 2 ^ 253 := by ring
    have := (Nat.pow_lt_pow_iff_right (by norm_num)).mp (Nat.lt_of_mul_lt_mul_left hlt)
    omega

/-! ## The rounded pattern -/

/-- The significand `rneMagnitude` computes, in units of the spacing at the exponent. -/
def significand (n d : Nat) : Nat := roundTiesEven (n * 2 ^ 149) (d * 2 ^ binadeShifted n d)

theorem rneMagnitude_eq (n d : Nat) :
    rneMagnitude n d =
      if n = 0 then 0#32
      else if posInf.toNat ≤ binadeShifted n d * 2 ^ 23 + significand n d then posInf
      else BitVec.ofNat 32 (binadeShifted n d * 2 ^ 23 + significand n d) := rfl

theorem significand_bounds {n d : Nat} (hn : 0 < n) (hd : 0 < d) :
    (binadeShifted n d = 0 ∨ 2 ^ 23 ≤ significand n d) ∧ significand n d ≤ 2 ^ 24 := by
  obtain ⟨hlo, hhi⟩ := binadeShifted_spec hn hd
  rw [pow_succ 2 (binadeShifted n d), ← mul_assoc] at hhi
  have hpos : 0 < d * 2 ^ binadeShifted n d := by positivity
  exact ⟨hlo.imp_right fun h => le_roundTiesEven hpos (by omega), roundTiesEven_le hpos (by omega)⟩

theorem finiteUnits_ofNat {b : Nat} (h : b < 2 ^ 31) : finiteUnits (BitVec.ofNat 32 b) = magUnits b := by
  have hb : (BitVec.ofNat 32 b).toNat = b := by
    rw [BitVec.toNat_ofNat]
    omega
  rw [finiteUnits, signField_eq_decide, hb, Nat.mod_eq_of_lt h, if_neg (by simpa using h)]

theorem finiteUnits_rneMagnitude {n d : Nat} (hn : 0 < n) (hd : 0 < d) (hmax : n < d * 2 ^ 127) :
    finiteUnits (rneMagnitude n d) = significand n d * 2 ^ binadeShifted n d := by
  have he : binadeShifted n d ≤ 252 := binadeShifted_le hn hd hmax
  obtain ⟨hlo, hhi⟩ := significand_bounds hn hd
  have hinf : posInf.toNat = 255 * 2 ^ 23 := rfl
  have hbits : rneMagnitude n d = BitVec.ofNat 32 (binadeShifted n d * 2 ^ 23 + significand n d) := by
    rw [rneMagnitude_eq, if_neg hn.ne', if_neg (by omega)]
  rw [hbits, finiteUnits_ofNat (by omega), magUnits_pack hlo hhi]
  push_cast
  rfl

/-- At the exponent of `n / d` no multiple of the spacing is nearer than the significand's. -/
theorem significand_nearest_multiple {n d : Nat} (hd : 0 < d) (k : Int) :
    |(significand n d : Rat) * 2 ^ binadeShifted n d - n / d * 2 ^ 149|
      ≤ |k * 2 ^ binadeShifted n d - (n : Rat) / d * 2 ^ 149| := by
  have hround := roundTiesEven_nearest (n * 2 ^ 149) (d := d * 2 ^ binadeShifted n d) (by positivity) k
  rw [← significand] at hround
  have hscale (a : Rat) : a * 2 ^ binadeShifted n d - n / d * 2 ^ 149
      = (a - ((n * 2 ^ 149 : Nat) : Rat) / ((d * 2 ^ binadeShifted n d : Nat) : Rat)) * 2 ^ binadeShifted n d := by
    have hd' : (d : Rat) ≠ 0 := by exact_mod_cast hd.ne'
    push_cast
    field_simp
    norm_num
  rw [hscale, hscale, abs_mul, abs_mul]
  exact mul_le_mul_of_nonneg_right hround (abs_nonneg _)

/-- No pattern is nearer to `n / d` than the rounded one: a multiple of the spacing is no nearer than the nearest
multiple, and a finer pattern is no nearer than the start of the binade, which is such a multiple. -/
theorem rneMagnitude_nearest {n d : Nat} (hn : 0 < n) (hd : 0 < d) (hmax : n < d * 2 ^ 127) (f : Word) :
    |(finiteUnits (rneMagnitude n d) : Rat) - n / d * 2 ^ 149| ≤ |(finiteUnits f : Rat) - n / d * 2 ^ 149| := by
  have hmultiple := significand_nearest_multiple (n := n) hd
  obtain ⟨hbinade, _⟩ := binadeShifted_spec hn hd
  rw [finiteUnits_rneMagnitude hn hd hmax]
  push_cast
  generalize binadeShifted n d = e at *
  rcases dvd_finiteUnits_or_lt e f with ⟨k, hk⟩ | hlt
  · rw [hk, mul_comm (2 ^ e : Int)]
    exact_mod_cast hmultiple k
  · rcases hbinade with rfl | hbinade
    · simpa using hmultiple (finiteUnits f)
    · have hstart : (2 ^ 23 * 2 ^ e : Rat) ≤ n / d * 2 ^ 149 := by
        have hscaled : (d * 2 ^ e : Rat) ≤ n * 2 ^ 126 := by exact_mod_cast hbinade
        rw [div_mul_eq_mul_div, le_div_iff₀ (by exact_mod_cast hd)]
        linarith
      have hbelow : (finiteUnits f : Rat) < 2 ^ 23 * 2 ^ e := by exact_mod_cast hlt
      calc |(significand n d : Rat) * 2 ^ e - n / d * 2 ^ 149|
          ≤ |((2 ^ 23 : Int) : Rat) * 2 ^ e - n / d * 2 ^ 149| := hmultiple (2 ^ 23)
        _ = n / d * 2 ^ 149 - 2 ^ 23 * 2 ^ e := by
          push_cast
          rw [abs_sub_comm, abs_of_nonneg (by linarith)]
          norm_num
        _ ≤ n / d * 2 ^ 149 - finiteUnits f := by linarith
        _ ≤ |(finiteUnits f : Rat) - n / d * 2 ^ 149| := by
          rw [abs_sub_comm]
          exact le_abs_self _

@[simp] theorem finiteValue_zero : finiteValue 0#32 = 0 := by
  have hunits : finiteUnits 0#32 = 0 := by decide
  rw [finiteValue_eq_finiteUnits, hunits, Int.cast_zero, zero_div]

/-- `rne32` of a nonnegative rational below `2 ^ 127` is a nearest finite pattern (R14). -/
theorem rne32_nearest {q : Rat} (h0 : 0 ≤ q) (hmax : q < 2 ^ 127) (f : Word) :
    |finiteValue (rne32 q) - q| ≤ |finiteValue f - q| := by
  rcases h0.eq_or_lt with rfl | hpos
  · have hzero : rne32 0 = 0#32 := by decide
    simp [hzero]
  · have hq : q = (q.num.natAbs : Rat) / q.den := by
      rw [Nat.cast_natAbs, abs_of_pos (Rat.num_pos.mpr hpos), Rat.num_div_den]
    have hd : (0 : Rat) < q.den := by exact_mod_cast q.pos
    have hn : 0 < q.num.natAbs := Int.natAbs_pos.mpr (Rat.num_pos.mpr hpos).ne'
    have hlt : q.num.natAbs < q.den * 2 ^ 127 := by
      rw [hq, div_lt_iff₀ hd, mul_comm] at hmax
      exact_mod_cast hmax
    have hunits (g : Word) : |finiteValue g - q| = |(finiteUnits g : Rat) - q * 2 ^ 149| / 2 ^ 149 := by
      have hscale : finiteValue g - q = (finiteUnits g - q * 2 ^ 149) / 2 ^ 149 := by
        rw [finiteValue_eq_finiteUnits]
        ring
      rw [hscale, abs_div, abs_of_pos (show (0 : Rat) < 2 ^ 149 by positivity)]
    rw [hunits, hunits, rne32, if_neg (not_lt.mpr h0)]
    have hnear := rneMagnitude_nearest hn q.pos hlt f
    rw [← hq] at hnear
    exact div_le_div_of_nonneg_right hnear (by positivity)

/-- Settles O23: the exact voltage is nonnegative and far below the largest finite value. -/
theorem voltageIsANearestBinary32 : Obligations.VoltageIsANearestBinary32 := by
  intro r f hr _
  have hr' : (r : Rat) ≤ 4095 := by exact_mod_cast hr
  exact rne32_nearest (by positivity) (by linarith) f

end Sys2Proof.Machine
end

section
/-! What the host reads: the bits of the three views (R36, R42, R47) and the register at each offset (R34, R87). -/

namespace Sys2Proof.Machine

/-! ## Fields of a word, bit by bit -/

/-- A field of a word is the value whose bits the word shows there. -/
theorem extractLsb'_eq_of_getElem {w : Word} {start len : Nat} {v : BitVec len} (hw : start + len ≤ 32)
    (h : ∀ i (hi : i < len), w[start + i] = v[i]) : w.extractLsb' start len = v := by
  refine BitVec.eq_of_getElem_eq fun i hi => ?_
  rw [BitVec.getElem_extractLsb', BitVec.getLsbD_eq_getElem (by omega), h i hi]

/-! ## `STATUS` (R36) -/

theorem State.statusView_getElem (s : State) (i : Nat) (h : i < 32) :
    s.statusView[i] =
      (decide (i = 0) && s.seq.busy || decide (i = 1) && s.status.done
        || decide (4 ≤ i) && s.status.lastErr.getLsbD (i - 4) || decide (i = 8) && s.status.errSticky
        || decide (i = 9) && s.status.ovr || decide (i = 10) && s.adc.ready
        || decide (i = 16) && s.tim0.ready || decide (i = 17) && s.tim1.ready || decide (i = 18) && s.tim2.ready) := by
  simp only [State.statusView, BitVec.getElem_or, bitAt_getElem, fieldAt_getElem, Nat.reduceLT]

theorem State.statusView_lastErr (s : State) : s.statusView.extractLsb' 4 4 = s.status.lastErr := by
  refine extractLsb'_eq_of_getElem (by decide) fun i hi => ?_
  rw [State.statusView_getElem]
  interval_cases i <;> simp

theorem State.statusView_reserved (s : State) {start len : Nat} (hw : start + len ≤ 32)
    (h : start = 2 ∧ len = 2 ∨ start = 11 ∧ len = 5 ∨ start = 19 ∧ len = 13) :
    s.statusView.extractLsb' start len = 0#len := by
  refine extractLsb'_eq_of_getElem hw fun i hi => ?_
  rw [State.statusView_getElem]
  rcases h with ⟨rfl, rfl⟩ | ⟨rfl, rfl⟩ | ⟨rfl, rfl⟩ <;> interval_cases i <;> simp

theorem State.statusView_ready (s : State) (t : TimerId) :
    s.statusView.getLsbD (16 + timerNum t) = (s.timer t).ready := by
  cases t <;> simp [timerNum, State.statusView_getElem]

/-! ## `ADC_CTRL` (R42) -/

theorem Adc.ctrlView_getElem (a : Adc) (i : Nat) (h : i < 32) :
    a.ctrlView[i] =
      (decide (i = 0) && a.adon || decide (i = 1) && a.cont || decide (i = 2) && a.align
        || decide (i = 3) && a.swtrig || decide (i = 4) && a.rstcal || decide (i = 5) && a.cal
        || decide (i = 6) && a.eoc || decide (i = 7) && a.ready || decide (8 ≤ i) && a.div.getLsbD (i - 8)
        || decide (12 ≤ i) && a.smp.getLsbD (i - 12) || decide (16 ≤ i) && a.chsel.getLsbD (i - 16)) := by
  simp only [Adc.ctrlView, BitVec.getElem_or, bitAt_getElem, fieldAt_getElem, Nat.reduceLT]

theorem Adc.ctrlView_div (a : Adc) : a.ctrlView.extractLsb' 8 4 = a.div := by
  refine extractLsb'_eq_of_getElem (by decide) fun i hi => ?_
  rw [Adc.ctrlView_getElem]
  interval_cases i <;> simp

theorem Adc.ctrlView_smp (a : Adc) : a.ctrlView.extractLsb' 12 3 = a.smp := by
  refine extractLsb'_eq_of_getElem (by decide) fun i hi => ?_
  rw [Adc.ctrlView_getElem]
  interval_cases i <;> simp

theorem Adc.ctrlView_chsel (a : Adc) : a.ctrlView.extractLsb' 16 4 = a.chsel := by
  refine extractLsb'_eq_of_getElem (by decide) fun i hi => ?_
  rw [Adc.ctrlView_getElem]
  interval_cases i <;> simp

theorem Adc.ctrlView_reserved (a : Adc) : a.ctrlView.extractLsb' 20 12 = 0#12 := by
  refine extractLsb'_eq_of_getElem (by decide) fun i hi => ?_
  rw [Adc.ctrlView_getElem]
  interval_cases i <;> simp

/-- Settles O13: each bit of the view is one field's, and none is `PEND`'s. -/
theorem adcCtrlRegister : Obligations.AdcCtrlRegister := by
  intro a
  have hbit := a.ctrlView_getElem
  exact ⟨by simp [hbit], by simp [hbit], by simp [hbit], by simp [hbit], by simp [hbit], by simp [hbit],
    by simp [hbit], by simp [hbit], a.ctrlView_div, a.ctrlView_smp, by simp [hbit], a.ctrlView_chsel,
    a.ctrlView_reserved, fun b => rfl⟩

/-! ## `TIM_CTRL` (R47) -/

theorem Timer.chanView_getElem (t : Timer) (c : ChanId) {n : Nat} (hn : n ≤ 4) (i : Nat) (h : i < 32) :
    (t.chanView c n)[i] =
      (decide (i = 3 + n) && (t.ch c).cce || decide (i = 7 + n) && (t.ch c).pwm1
        || decide (i = 11 + n) && (t.ch c).ocpe || decide (i = 15 + n) && t.out c) := by
  have h3 : 3 + n < 32 := by omega
  have h7 : 7 + n < 32 := by omega
  have h11 : 11 + n < 32 := by omega
  have h15 : 15 + n < 32 := by omega
  simp only [Timer.chanView, BitVec.getElem_or, bitAt_getElem, h3, h7, h11, h15]

theorem Timer.ctrlView_getElem (t : Timer) (i : Nat) (h : i < 32) :
    t.ctrlView[i] =
      (decide (i = 0) && t.cen || decide (i = 1) && t.arpe || decide (i = 2) && t.ready
        || (t.chanView .c1 1)[i] || (t.chanView .c2 2)[i] || (t.chanView .c3 3)[i] || (t.chanView .c4 4)[i]) := by
  simp only [Timer.ctrlView, BitVec.getElem_or, bitAt_getElem, Nat.reduceLT]

/-- The four bits of a channel stand at its number from their bases. -/
theorem Timer.ctrlView_channel (t : Timer) (c : ChanId) :
    t.ctrlView.getLsbD (3 + chanNum c) = (t.ch c).cce ∧ t.ctrlView.getLsbD (7 + chanNum c) = (t.ch c).pwm1
      ∧ t.ctrlView.getLsbD (11 + chanNum c) = (t.ch c).ocpe ∧ t.ctrlView.getLsbD (15 + chanNum c) = t.out c := by
  cases c <;> simp [chanNum, Timer.ctrlView_getElem, Timer.chanView_getElem]

/-- The output line is high under R177's condition. -/
theorem Timer.out_iff (t : Timer) (c : ChanId) :
    t.out c = true ↔ (t.ch c).cce = true ∧ (t.ch c).pwm1 = true ∧ t.cnt.toNat < (t.ch c).ccrAct.toNat := by
  simp [Timer.out, BitVec.lt_def, and_assoc]

theorem Timer.ctrlView_reserved (t : Timer) : t.ctrlView.extractLsb' 20 12 = 0#12 := by
  refine extractLsb'_eq_of_getElem (by decide) fun i hi => ?_
  rw [Timer.ctrlView_getElem]
  interval_cases i <;> simp [Timer.chanView_getElem]

/-- Settles O14: each bit of the view is one field's or one output line's. -/
theorem timCtrlRegister : Obligations.TimCtrlRegister := by
  intro t
  have hbit := t.ctrlView_getElem
  have hchan := t.chanView_getElem
  refine ⟨by simp [hbit, hchan], by simp [hbit, hchan], by simp [hbit, hchan], by simp [hbit, hchan], fun c => ?_,
    t.ctrlView_reserved, fun psc arr cnt => rfl⟩
  obtain ⟨hcce, hpwm, hocpe, hout⟩ := t.ctrlView_channel c
  exact ⟨hcce, hpwm, hocpe, by rw [hout, t.out_iff]⟩

/-! ## The register map (R34) -/

/-- No register stands past the last timer's block (R34). -/
theorem slotReg_of_ge {k : Nat} (h : 40 ≤ k) : slotReg k = .reserved := by
  have hne (n : Nat) (hn : n < 40) : k ≠ n := by omega
  have hlt (n : Nat) (hn : n ≤ 40) : ¬ k < n := by omega
  simp [slotReg, hne, hlt]

/-- Only the first slot of the window is `CMD` (R34). -/
theorem slotReg_eq_cmd {k : Nat} (h : slotReg k = .cmd) : k = 0 := by
  have hnamed : ∀ k < 40, slotReg k = .cmd → k = 0 := by decide
  by_cases hk : k < 40
  · exact hnamed k hk h
  · rw [slotReg_of_ge (Nat.le_of_not_lt hk)] at h
    cases h

theorem slotReg_reserved {k : Nat} (h : k = 7 ∨ 10 ≤ k ∧ k < 16 ∨ 40 ≤ k) : slotReg k = .reserved := by
  have hgaps : ∀ k < 16, k = 7 ∨ 10 ≤ k → slotReg k = .reserved := by decide
  by_cases hk : 40 ≤ k
  · exact slotReg_of_ge hk
  · exact hgaps k (by omega) (by omega)

/-- A word read at the offset of a register returns that register (R87). -/
theorem State.memRead_reg (s : State) {off : Nat} {r : Reg} (h : off < 256) (ha : off % 4 = 0)
    (hr : slotReg (off / 4) = r) : s.memRead (Config.aspaBase + off) 4 = .done (s.readReg r) := by
  rw [s.memRead_word h ha, hr]

/-- The word reads of one timer's block (R34). -/
theorem State.memRead_timer (s : State) (t : TimerId) :
    s.memRead (Config.aspaBase + (0x40 + 0x20 * timerNum t + 0x00)) 4 = .done (s.readReg (.timCtrl t))
      ∧ s.memRead (Config.aspaBase + (0x40 + 0x20 * timerNum t + 0x04)) 4 = .done (s.readReg (.timPsc t))
      ∧ s.memRead (Config.aspaBase + (0x40 + 0x20 * timerNum t + 0x08)) 4 = .done (s.readReg (.timArr t))
      ∧ s.memRead (Config.aspaBase + (0x40 + 0x20 * timerNum t + 0x0C)) 4 = .done (s.readReg (.timCnt t))
      ∧ ∀ c, s.memRead (Config.aspaBase + (0x40 + 0x20 * timerNum t + 0x10 + 4 * (chanNum c - 1))) 4
          = .done (s.readReg (.timCcr t c)) := by
  refine ⟨?_, ?_, ?_, ?_, fun c => ?_⟩
  · exact s.memRead_reg (by cases t <;> decide) (by cases t <;> decide) (by cases t <;> rfl)
  · exact s.memRead_reg (by cases t <;> decide) (by cases t <;> decide) (by cases t <;> rfl)
  · exact s.memRead_reg (by cases t <;> decide) (by cases t <;> decide) (by cases t <;> rfl)
  · exact s.memRead_reg (by cases t <;> decide) (by cases t <;> decide) (by cases t <;> rfl)
  · exact s.memRead_reg (by cases t <;> cases c <;> decide) (by cases t <;> cases c <;> decide)
      (by cases t <;> cases c <;> rfl)

/-- Settles O11: each offset is the register the map names, and a read move hands over what the read function
returns. -/
theorem hostReadsTheRegisterMap : Obligations.HostReadsTheRegisterMap := by
  intro s
  refine ⟨s.memRead_reg (r := .cmd) (by decide) rfl rfl, s.memRead_reg (r := .arg) (by decide) rfl rfl,
    s.memRead_reg (r := .status) (by decide) rfl rfl, s.memRead_reg (r := .result) (by decide) rfl rfl,
    s.memRead_reg (r := .errCmd) (by decide) rfl rfl, s.memRead_reg (r := .timeout) (by decide) rfl rfl, ?_,
    s.memRead_reg (r := .adcCtrl) (by decide) rfl rfl, ?_, fun t => ?_, fun off ha hoff => ?_, fun off h ha => ?_⟩
  · rw [BitVec.ofNat_toNat]
    exact s.memRead_reg (r := .deadband) (by decide) rfl rfl
  · rw [BitVec.ofNat_toNat]
    exact s.memRead_reg (r := .adcDr) (by decide) rfl rfl
  · obtain ⟨hctrl, hpsc, harr, hcnt, hccr⟩ := s.memRead_timer t
    refine ⟨hctrl, ?_, harr, hcnt, hccr⟩
    rw [BitVec.ofNat_toNat]
    exact hpsc
  · exact s.memRead_reg (by omega) ha (slotReg_reserved (by omega))
  · exact ⟨_, s.memRead_word h ha, s.applyMove_readWord h ha⟩

end Sys2Proof.Machine
end

section
/-! How a micro-step ends (R252, R253) and what each command leaves unchanged (R35 to R40, R51, R52), read off the
shapes of `ExecShape`; and which moves can set the sticky bits of `STATUS` (R36). -/

namespace Sys2Proof.Machine

/-! ## The three ways a micro-step can leave its command -/

/-- What a micro-step taken in `s` with the answer `t` does to the completion state: nothing, `complete` or `raise`. -/
inductive StepEnd (s t : State) : Prop
  /-- The command goes on. -/
  | goesOn : t.seq.mode = s.seq.mode → t.status = s.status → t.result = s.result → t.errCmd = s.errCmd → StepEnd s t
  /-- The command completes (R252). -/
  | completes : t.seq.mode = .idle → t.seq.step = none → t.status = s.status.completed → t.errCmd = s.errCmd →
      StepEnd s t
  /-- The command ends with an error (R253). -/
  | fails (e : ErrorCode) : t.seq.mode = .idle → t.seq.step = none → t.status = s.status.failed e →
      t.errCmd = s.seq.cmd → t.result = s.result → StepEnd s t

theorem ExecShape.stepEnd {i : Instr} {s t : State} (h : ExecShape i s t) : StepEnd s t := by
  cases h with
  | goOn l => exact .goesOn rfl rfl rfl rfl
  | raised e _ => exact .fails e rfl rfl rfl rfl rfl
  | configured a l _ => exact .goesOn rfl rfl rfl rfl
  | started a l _ => exact .goesOn rfl rfl rfl rfl
  | adcReady a _ => exact .completes rfl rfl rfl rfl
  | pins ps md af l _ => exact .goesOn rfl rfl rfl rfl
  | stay _ => exact .goesOn rfl rfl rfl rfl
  | counted _ => exact .goesOn rfl rfl rfl rfl
  | timedOut _ => exact .fails .hardwareTimeout rfl rfl rfl rfl rfl
  | taken l _ => exact .goesOn rfl rfl rfl rfl
  | accumulated n _ => exact .goesOn rfl rfl rfl rfl
  | cleared l _ => exact .goesOn rfl rfl rfl rfl
  | returned v _ => exact .completes rfl rfl rfl rfl
  | budget v _ => exact .completes rfl rfl rfl rfl
  | deadband v _ => exact .completes rfl rfl rfl rfl
  | timerStep tid x l _ => exact .goesOn (by simp) (by simp) (by simp) (by simp)
  | timerDone tid x _ => exact .completes (by simp) (by simp) (by simp) (by simp)

/-- A step of a running sequencer ends its command in one of the three ways, an illegal word by `raise`. -/
theorem State.sequencerStep_stepEnd {s t : State} (hm : s.seq.mode = .run) (h : s.sequencerStep = .next t) :
    StepEnd s t := by
  rcases State.sequencerStep_next h with ⟨hi, _⟩ | ⟨_, i, _, he⟩ | ⟨_, _, _, rfl⟩
  · exact absurd (hm.symm.trans hi) nofun
  · exact (exec_shape he).stepEnd
  · exact .fails .illegalCommand rfl rfl rfl rfl rfl

theorem ErrorCode.code_bounds (e : ErrorCode) : 1 ≤ e.code.toNat ∧ e.code.toNat ≤ 5 := by cases e <;> decide

theorem ErrorCode.code_ne_zero (e : ErrorCode) : e.code ≠ 0#4 := by cases e <;> decide

/-! ## The other agents leave the completion state -/

theorem State.writeReg_result (s : State) (w : Word) (r : Reg) : (s.writeReg w r).result = s.result := by
  rcases s.writeReg_cases w r with ⟨_, h⟩ | ⟨_, h⟩ | h | h | h <;> simp [h]

theorem State.writeReg_errCmd (s : State) (w : Word) (r : Reg) : (s.writeReg w r).errCmd = s.errCmd := by
  rcases s.writeReg_cases w r with ⟨_, h⟩ | ⟨_, h⟩ | h | h | h <;> simp [h]

/-- No host write sets `ERR_STICKY` (R36). -/
theorem State.writeReg_errSticky_le (s : State) (w : Word) (r : Reg) (h : (s.writeReg w r).status.errSticky = true) :
    s.status.errSticky = true := by
  rcases s.writeReg_cases w r with ⟨_, hr⟩ | ⟨_, hr⟩ | hr | hr | hr <;> simp [hr] at h
  all_goals tauto

/-- A host write that sets `OVR` is a write to `CMD` while a command runs (R36, R251). -/
theorem State.writeReg_sets_ovr {s : State} {w : Word} {r : Reg} (h0 : s.status.ovr = false)
    (h1 : (s.writeReg w r).status.ovr = true) : s.seq.mode = .run ∧ r = .cmd := by
  cases r with
  | cmd =>
    cases hm : s.seq.mode
    · simp [State.writeReg, State.cmdWrite, hm, h0] at h1
    · exact ⟨rfl, rfl⟩
  | status => simp [State.writeReg, h0] at h1
  | _ => simp [State.writeReg, h0] at h1

/-- A host write that answers a next state either concerns another device or writes the register at its offset. -/
theorem State.hostStep_write_next {s t : State} {a n : Nat} {w : Word} (h : s.hostStep (.write a n w) = .next t) :
    t = s ∨ ∃ off, a = Config.aspaBase + off ∧ n = 4 ∧ off % 4 = 0 ∧ t = s.writeReg w (slotReg (off / 4)) := by
  simp only [State.hostStep, State.memWrite] at h
  cases ho : windowOffset a with
  | none => simp only [ho] at h; cases h; exact .inl rfl
  | some off =>
    simp only [ho] at h
    cases hw : wordAccess off n
    · simp [hw] at h
    · obtain ⟨hn, ha⟩ := (wordAccess_iff off n).mp hw
      simp only [hw, if_true] at h
      cases h
      exact .inr ⟨off, (windowOffset_some ho).1, hn, ha, rfl⟩

/-- A host access that sets `OVR` is a write to `CMD` while a command runs. -/
theorem State.hostStep_sets_ovr {s t : State} {a : HostAccess} (h : s.hostStep a = .next t)
    (h0 : s.status.ovr = false) (h1 : t.status.ovr = true) :
    s.seq.mode = .run ∧ ∃ w, a = .write Config.aspaBase 4 w := by
  cases a with
  | read a n =>
    have ht : t.status = s.status := by
      simp only [State.hostStep] at h
      split at h <;> cases h <;> rfl
    simp [ht, h0] at h1
  | write a n w =>
    rcases State.hostStep_write_next h with rfl | ⟨off, rfl, rfl, halign, rfl⟩
    · simp [h0] at h1
    · obtain ⟨hm, hr⟩ := State.writeReg_sets_ovr h0 h1
      have hoff : off = 0 := by
        have := slotReg_eq_cmd hr
        omega
      exact ⟨hm, w, by rw [hoff, Nat.add_zero]⟩

/-- A move of the host, the converter or a timer leaves `RESULT` and `ERR_CMD`. -/
theorem State.applyMove_result_errCmd {s t : State} {m : Move} (h : s.applyMove m = .next t) (hs : m ≠ .sequencer)
    (hr : m ≠ .reset) : t.result = s.result ∧ t.errCmd = s.errCmd := by
  cases m with
  | host a =>
    rcases State.hostStep_next h with rfl | ⟨v, rfl⟩ | ⟨w, r, rfl⟩
    · exact ⟨rfl, rfl⟩
    · exact ⟨rfl, rfl⟩
    · exact ⟨s.writeReg_result w r, s.writeReg_errCmd w r⟩
  | sequencer => exact absurd rfl hs
  | converter e => cases h; exact ⟨rfl, rfl⟩
  | tick i => cases h; exact ⟨State.tickMove_result s i, State.tickMove_errCmd s i⟩
  | reset => exact absurd rfl hr

/-- Only a command that ends with an error sets `ERR_STICKY` (R36). -/
theorem State.applyMove_sets_errSticky {s t : State} {m : Move} (h : s.applyMove m = .next t)
    (h0 : s.status.errSticky = false) (h1 : t.status.errSticky = true) :
    m = .sequencer ∧ s.seq.mode = .run ∧ t.seq.mode = .idle ∧ t.status.lastErr ≠ 0#4 := by
  cases m with
  | host a =>
    rcases State.hostStep_next h with rfl | ⟨v, rfl⟩ | ⟨w, r, rfl⟩
    · simp [h0] at h1
    · simp [h0] at h1
    · have := s.writeReg_errSticky_le w r h1
      simp [h0] at this
  | sequencer =>
    cases hm : s.seq.mode with
    | idle =>
      have ht : Host.Outcome.next s = .next t := (State.sequencerStep_idle hm).symm.trans h
      cases ht
      simp [h0] at h1
    | run =>
      cases State.sequencerStep_stepEnd hm h with
      | goesOn _ hst _ _ => simp [hst, h0] at h1
      | completes _ _ hst _ => simp [hst, h0] at h1
      | fails e hi _ hst _ _ =>
        exact ⟨rfl, rfl, hi, by simpa [hst] using e.code_ne_zero⟩
  | converter e => cases h; simp [h0] at h1
  | tick i => cases h; simp [h0] at h1
  | reset => cases h; exact absurd h1 Bool.false_ne_true

/-- Only a `CMD` write to a running sequencer sets `OVR` (R36, R251). -/
theorem State.applyMove_sets_ovr {s t : State} {m : Move} (h : s.applyMove m = .next t)
    (h0 : s.status.ovr = false) (h1 : t.status.ovr = true) :
    s.seq.mode = .run ∧ ∃ w, m = .host (.write Config.aspaBase 4 w) := by
  cases m with
  | host a =>
    obtain ⟨hm, w, rfl⟩ := State.hostStep_sets_ovr h h0 h1
    exact ⟨hm, w, rfl⟩
  | sequencer =>
    cases hm : s.seq.mode with
    | idle =>
      have ht : Host.Outcome.next s = .next t := (State.sequencerStep_idle hm).symm.trans h
      cases ht
      simp [h0] at h1
    | run =>
      cases State.sequencerStep_stepEnd hm h with
      | goesOn _ hst _ _ => simp [hst, h0] at h1
      | completes _ _ hst _ => simp [hst, h0] at h1
      | fails e _ _ hst _ _ => simp [hst, h0] at h1
  | converter e => cases h; simp [h0] at h1
  | tick i => cases h; simp [h0] at h1
  | reset => cases h; exact absurd h1 Bool.false_ne_true

/-- A host write to `STATUS` clears the two sticky bits and changes nothing else (R36, R88). -/
theorem State.applyMove_writeStatus (s : State) (w : Word) :
    s.applyMove (.host (.write (Config.aspaBase + 0x08) 4 w)) =
      .next { s with
        status := { s.status with
          errSticky := if w.getLsbD 8 then false else s.status.errSticky
          ovr := if w.getLsbD 9 then false else s.status.ovr } } := by
  have hclear (b f : Bool) : (if b = true then false else f) = (f && !b) := by cases b <;> simp
  rw [s.applyMove_writeWord w (by decide) rfl, hclear, hclear]
  rfl

/-- Settles O12: the view bit by bit, the write of the two W1C bits, and the two moves that set them. -/
theorem statusRegister : Obligations.StatusRegister := by
  refine ⟨fun s => ?_, State.applyMove_writeStatus, fun s t m h =>
    ⟨State.applyMove_sets_errSticky h, State.applyMove_sets_ovr h⟩⟩
  have hbit := s.statusView_getElem
  have hbusy : s.seq.busy = decide (s.seq.mode = .run) := by cases hm : s.seq.mode <;> simp [Seq.busy, hm]
  exact ⟨by simp [hbit, hbusy], by simp [hbit], s.statusView_reserved (by decide) (by decide), s.statusView_lastErr,
    by simp [hbit], by simp [hbit], by simp [hbit], s.statusView_reserved (by decide) (by decide),
    s.statusView_ready, s.statusView_reserved (by decide) (by decide)⟩

/-- Settles O55: a running sequencer's step ends its command in one of three ways, and no other agent writes the
completion record. -/
theorem commandsEndByCompleteOrRaise : Obligations.CommandsEndByCompleteOrRaise := by
  refine ⟨fun s t hm h => ?_, fun s t m h hs hr => State.applyMove_result_errCmd h hs hr⟩
  cases State.sequencerStep_stepEnd hm h with
  | goesOn hmode hst hres herr =>
    refine ⟨fun _ => ⟨hres, herr, hst⟩, fun hi => ?_⟩
    rw [hmode, hm] at hi
    cases hi
  | completes hi hstep hst herr =>
    refine ⟨fun hrun => absurd (hi.symm.trans hrun) nofun, fun _ => ?_⟩
    rw [hst]
    exact ⟨hstep, rfl, rfl, .inl ⟨rfl, rfl, herr⟩⟩
  | fails e hi hstep hst herr hres =>
    refine ⟨fun hrun => absurd (hi.symm.trans hrun) nofun, fun _ => ?_⟩
    rw [hst]
    exact ⟨hstep, rfl, rfl, .inr ⟨e.code_bounds.1, e.code_bounds.2, rfl, herr, hres⟩⟩

/-! ## What a micro-step leaves unchanged -/

/-- The operand register, the latched command, `OVR` and the model's own fields are no command's to write. -/
theorem ExecShape.keeps_inputs {i : Instr} {s t : State} (h : ExecShape i s t) :
    t.arg = s.arg ∧ t.params = s.params ∧ t.agenda = s.agenda ∧ t.worldCount = s.worldCount
      ∧ t.hostRdata = s.hostRdata ∧ t.seq.cmd = s.seq.cmd ∧ t.seq.arg = s.seq.arg
      ∧ t.status.ovr = s.status.ovr := by
  cases h with
  | timerStep | timerDone => simp
  | _ => exact ⟨rfl, rfl, rfl, rfl, rfl, rfl, rfl, rfl⟩

theorem ExecShape.result_eq_or {i : Instr} {s t : State} (h : ExecShape i s t) :
    t.result = s.result ∨ returnsValue i := by
  cases h with
  | returned v hi => exact .inr hi
  | timerStep | timerDone => simp
  | _ => exact .inl rfl

theorem ExecShape.timeout_eq_or {i : Instr} {s t : State} (h : ExecShape i s t) :
    t.timeout = s.timeout ∨ i = .adcSetTimeout := by
  cases h with
  | budget v hi => exact .inr hi
  | timerStep | timerDone => simp
  | _ => exact .inl rfl

theorem ExecShape.deadband_eq_or {i : Instr} {s t : State} (h : ExecShape i s t) :
    t.deadband = s.deadband ∨ i = .motorSetDeadband := by
  cases h with
  | deadband v hi => exact .inr hi
  | timerStep | timerDone => simp
  | _ => exact .inl rfl

/-- `PINLOG` only grows, and only the initialisers send pin requests (R40). -/
theorem ExecShape.pinLog_prefix {i : Instr} {s t : State} (h : ExecShape i s t) :
    s.pinLog <+: t.pinLog ∧ (t.pinLog = s.pinLog ∨ i = .adcInit ∨ i = .motorInit ∨ i = .servoInit) := by
  cases h with
  | pins ps md af l hi => exact ⟨List.prefix_append _ _, .inr hi⟩
  | timerStep | timerDone => simp
  | _ => exact ⟨List.prefix_rfl, .inl rfl⟩

theorem waits_of_returnsReading {i : Instr} (h : (∃ ch, i = .adcSample ch) ∨ ∃ ch n, i = .adcAvg ch n) :
    waits i = true := by
  rcases h with ⟨ch, rfl⟩ | ⟨ch, n, rfl⟩ <;> rfl

/-- Only a command that waits writes the ADC or the poll counter. -/
theorem ExecShape.adc_polls_eq_or {i : Instr} {s t : State} (h : ExecShape i s t) :
    (t.adc = s.adc ∧ t.seq.polls = s.seq.polls) ∨ waits i = true := by
  cases h with
  | configured a l hi => exact .inr (by rw [hi]; rfl)
  | started a l hi => exact .inr hi
  | adcReady a hi => exact .inr (by rw [hi]; rfl)
  | stay hi => exact .inr hi
  | counted hi => exact .inr hi
  | timedOut hi => exact .inr hi
  | taken l hi => exact .inr (waits_of_returnsReading (.inl hi))
  | accumulated n hi => exact .inr (waits_of_returnsReading (.inr (hi.imp fun _ h => ⟨n, h⟩)))
  | timerStep | timerDone => simp
  | _ => exact .inl ⟨rfl, rfl⟩

theorem ExecShape.acc_k_eq_or {i : Instr} {s t : State} (h : ExecShape i s t) :
    (t.seq.acc = s.seq.acc ∧ t.seq.k = s.seq.k) ∨ ∃ ch n, i = .adcAvg ch n := by
  cases h with
  | accumulated n hi => exact .inr (hi.imp fun _ h => ⟨n, h⟩)
  | cleared l hi => exact .inr hi
  | timerStep | timerDone => simp
  | _ => exact .inl ⟨rfl, rfl⟩

theorem ExecShape.val_eq_or {i : Instr} {s t : State} (h : ExecShape i s t) :
    t.seq.val = s.seq.val ∨ (∃ ch, i = .adcSample ch) ∨ ∃ ch n, i = .adcAvg ch n := by
  cases h with
  | taken l hi => exact .inr (.inl hi)
  | accumulated n hi => exact .inr (.inr (hi.imp fun _ h => ⟨n, h⟩))
  | timerStep | timerDone => simp
  | _ => exact .inl rfl

/-- A command changes a timer only if it is one that writes it. -/
theorem ExecShape.timer_eq_or {i : Instr} {s t : State} (h : ExecShape i s t) (j : TimerId) :
    t.timer j = s.timer j ∨ writesTimer i j := by
  cases h with
  | timerStep tid x l hi =>
    by_cases hj : j = tid
    · subst hj
      exact .inr (.inr (hi.imp (fun h => ⟨h.1, .inl h.2⟩) fun h => ⟨h.1, .inl h.2⟩))
    · exact .inl (State.timer_setTimer_ne s x hj)
  | timerDone tid x hi =>
    by_cases hj : j = tid
    · subst hj
      exact .inr hi
    · exact .inl (State.timer_setTimer_ne s x hj)
  | _ => exact .inl rfl

/-- Settles O54: the frame of every micro-step, field by field over the shapes of its answer. -/
theorem commandFrame : Obligations.CommandFrame := by
  intro i s t h
  have hx := exec_shape h
  obtain ⟨harg, hparams, hagenda, hcount, hdata, hcmd, hlatched, hovr⟩ := hx.keeps_inputs
  exact ⟨harg, hparams, hagenda, hcount, hdata, hcmd, hlatched, hovr,
    hx.result_eq_or.resolve_left, hx.timeout_eq_or.resolve_left, hx.deadband_eq_or.resolve_left,
    hx.pinLog_prefix.1, hx.pinLog_prefix.2.resolve_left,
    fun hne => hx.adc_polls_eq_or.resolve_left fun heq => hne heq.1,
    fun hne => hx.adc_polls_eq_or.resolve_left fun heq => hne heq.2,
    fun hne => hx.acc_k_eq_or.resolve_left fun heq => hne.elim (· heq.1) (· heq.2),
    hx.val_eq_or.resolve_left, fun j => (hx.timer_eq_or j).resolve_left⟩

end Sys2Proof.Machine
end

section
/-! The converter's steps under their conditions, and the moves that stutter (R44, R170, R291). -/

namespace Sys2Proof.Machine

/-- Settles O29: each step of an enabled converter under its condition. -/
theorem converterSteps : Obligations.ConverterSteps := by
  intro s hon
  refine ⟨fun hcal => ?_, fun hcal => ?_, fun hpend v => ?_⟩
  · simp [State.applyMove, State.converterMove, Adc.converterStep, hon, hcal]
  · simp [State.applyMove, State.converterMove, Adc.converterStep, hon, hcal]
  · simp [State.applyMove, State.converterMove, Adc.converterStep, hon, hpend]

theorem State.converterMove_eq_self {s : State} {e : ConverterEvent} (h : s.adc.converterStep e = s.adc) :
    s.converterMove e = s := by
  simp [State.converterMove, h]

/-- Settles O36: an idle sequencer, a stopped timer and a converter without an enabled step. -/
theorem disabledMovesChangeNothing : Obligations.DisabledMovesChangeNothing := by
  intro s
  refine ⟨fun hm => State.sequencerStep_idle hm, fun t hc => ?_, fun hon e => ?_, fun hc => ?_, fun hc => ?_,
    fun hc v => ?_⟩
  · simp [State.applyMove, State.tickMove, hc]
  · exact congrArg _ (State.converterMove_eq_self (by cases e <;> simp [Adc.converterStep, hon]))
  · exact congrArg _ (State.converterMove_eq_self (by simp [Adc.converterStep, hc]))
  · exact congrArg _ (State.converterMove_eq_self (by simp [Adc.converterStep, hc]))
  · exact congrArg _ (State.converterMove_eq_self (by simp [Adc.converterStep, hc]))

end Sys2Proof.Machine
end

section
/-! What a command can do to a timer (R180 to R186, R211 to R214, R231, R233), said once: the operations it is made of,
each with the side condition its command's checks establish. The timer's part of the invariant and the fate of the
active copies (R50, R184) follow by induction on them. -/

namespace Sys2Proof.Machine

open Sys2Proof.Claims

/-! ## The writes of a command to one timer -/

/-- The timer `y` comes from `x` by the timer operations of a micro-step, for `TIMER_BITS = bits` and the prescaler
value `psc`. -/
inductive TimerWrites (bits psc : Nat) (x : Timer) : Timer → Prop
  | refl : TimerWrites bits psc x x
  /-- The configuration of `PWM_INIT` with a period that fits (R172, R180). -/
  | configure {v : Nat} : v + 2 ≤ 2 ^ bits →
      TimerWrites bits psc x (x.configure (BitVec.ofNat 16 psc) (BitVec.ofNat 32 v))
  /-- An output enable of a ready timer (R185, R186). -/
  | setCce {y : Timer} (c : ChanId) (b : Bool) : TimerWrites bits psc x y → y.ready = true →
      TimerWrites bits psc x (y.setCce c b)
  /-- A compare value of a ready timer, at most its period plus one (R183). -/
  | writeCcr {y : Timer} (c : ChanId) {v : Nat} : TimerWrites bits psc x y → y.ready = true →
      v ≤ y.arrPre.toNat + 1 → TimerWrites bits psc x (y.writeCcr c (BitVec.ofNat 32 v))

theorem TimerWrites.timerInv {bits psc : Nat} {x y : Timer} (hb : bits ≤ 32) (hp : psc < 2 ^ 16)
    (hx : TimerInv bits psc x) (h : TimerWrites bits psc x y) : TimerInv bits psc y := by
  induction h with
  | refl => exact hx
  | configure hv => exact hx.configure hb hp hv
  | setCce c b _ hr ih => exact ih.setCce hr c b
  | writeCcr c _ hr hv ih => exact ih.writeCcr hr c hb hv

/-! ## The writes of a micro-step to the timers -/

/-- Each timer of `t` comes from the timer of `s` by operations of a micro-step. -/
def TimersWritten (s t : State) : Prop :=
  ∀ j, TimerWrites s.params.timerBits (pscVal s.params j) (s.timer j) (t.timer j)

theorem TimersWritten.of_timer_eq {s t : State} (h : ∀ j, t.timer j = s.timer j) : TimersWritten s t := fun j => by
  rw [h j]
  exact .refl

theorem TimersWritten.refl (s : State) : TimersWritten s s := .of_timer_eq fun _ => rfl

theorem TimersWritten.configureTimer (s : State) (tid : TimerId) {p : Nat} (hp : p + 2 ≤ 2 ^ s.params.timerBits) :
    TimersWritten s (s.configureTimer tid p) := fun j => by
  rw [State.timer_configureTimer]
  split
  · next hj => subst hj; exact .configure hp
  · exact .refl

theorem TimersWritten.setCce {s t : State} (h : TimersWritten s t) {tid : TimerId} (c : ChanId) (b : Bool)
    (hr : (t.timer tid).ready = true) : TimersWritten s (t.setCce tid c b) := fun j => by
  rw [State.timer_setCce]
  split
  · next hj => subst hj; exact (h j).setCce c b hr
  · exact h j

theorem TimersWritten.writeCcr {s t : State} (h : TimersWritten s t) {tid : TimerId} (c : ChanId) {v : Nat}
    (hr : (t.timer tid).ready = true) (hv : v ≤ (t.timer tid).arrPre.toNat + 1) :
    TimersWritten s (t.writeCcr tid c v) := fun j => by
  rw [State.timer_writeCcr]
  split
  · next hj => subst hj; exact (h j).writeCcr c hr hv
  · exact h j

@[simp] theorem State.writeCcr_arrPre (s : State) (t i : TimerId) (c : ChanId) (v : Nat) :
    ((s.writeCcr t c v).timer i).arrPre = (s.timer i).arrPre := by
  rw [State.timer_writeCcr]
  split
  · next hi => rw [hi, Timer.writeCcr_arrPre]
  · rfl

@[simp] theorem State.writeCcr_ready (s : State) (t i : TimerId) (c : ChanId) (v : Nat) :
    ((s.writeCcr t c v).timer i).ready = (s.timer i).ready := by
  rw [State.timer_writeCcr]
  split
  · next hi => rw [hi, Timer.writeCcr_ready]
  · rfl

@[simp] theorem State.setCce_ready (s : State) (t i : TimerId) (c : ChanId) (b : Bool) :
    ((s.setCce t c b).timer i).ready = (s.timer i).ready := by
  rw [State.timer_setCce]
  split
  · next hi => rw [hi, Timer.setCce_ready]
  · rfl

theorem TimersWritten.writePair {s t : State} (h : TimersWritten s t) (a : ActuatorId) {fwd rev : Nat}
    (hr : (t.timer Config.motorTimer).ready = true) (hf : fwd ≤ (t.timer Config.motorTimer).arrPre.toNat + 1)
    (hv : rev ≤ (t.timer Config.motorTimer).arrPre.toNat + 1) : TimersWritten s (t.writePair a fwd rev) :=
  (h.writeCcr _ hr hf).writeCcr _ (by simpa) (by simpa)

theorem TimersWritten.writeServo {s t : State} (h : TimersWritten s t) (a : ActuatorId) (g : Word)
    (hr : (t.timer Config.servoTimer).ready = true) : TimersWritten s (t.writeServo a g) :=
  h.writeCcr _ hr (servoPulse_le _ _)

@[simp] theorem State.writePair_ready (s : State) (a : ActuatorId) (fwd rev : Nat) (i : TimerId) :
    ((s.writePair a fwd rev).timer i).ready = (s.timer i).ready := by
  simp [State.writePair]

@[simp] theorem State.writeServo_ready (s : State) (a : ActuatorId) (g : Word) (i : TimerId) :
    ((s.writeServo a g).timer i).ready = (s.timer i).ready :=
  State.writeCcr_ready _ _ _ _ _

/-- A fixed carrier's period fits every legal `TIMER_BITS` (R10, R211, R231). -/
theorem carrierPeriod_fits {bits f : Nat} (hb : 15 ≤ bits) (hf : 50 ≤ f) : carrierPeriod f + 2 ≤ 2 ^ bits := by
  have h15 : 2 ^ 15 ≤ 2 ^ bits := Nat.pow_le_pow_right (by norm_num) hb
  have hdiv : Config.tickHz / f ≤ Config.tickHz / 50 := Nat.div_le_div_left hf (by norm_num)
  have hsmall : Config.tickHz / 50 + 2 ≤ 2 ^ 15 := by decide
  unfold carrierPeriod
  omega

/-! ## Each command's writes -/

theorem execPwmInit_timersWritten {x : Sel} {s t : State} (hp : paramsValid s.params = true)
    (h : execPwmInit x s = .next t) : TimersWritten s t := by
  unfold execPwmInit at h
  repeat' split at h
  all_goals cases h
  · exact .refl s
  · exact .refl s
  · exact .refl s
  · next tid p _ hper =>
    have hbits := paramsValid_bits hp
    have h15 : 2 ^ 15 ≤ 2 ^ s.params.timerBits := Nat.pow_le_pow_right (by norm_num) hbits.1
    have hle := (periodOf_ok hper).2.2.2
    exact TimersWritten.configureTimer s tid (by omega)

theorem execPwmSetDuty_timersWritten {x c : Sel} {s t : State} (h : execPwmSetDuty x c s = .next t) :
    TimersWritten s t := by
  unfold execPwmSetDuty at h
  repeat' split at h
  all_goals cases h
  · exact .refl s
  · next tid cid hc =>
    exact (TimersWritten.refl s).writeCcr cid (State.checkChannel_ok hc).2.2 (pulse_le _ _)

theorem execPwmStart_timersWritten {x c : Sel} {s t : State} (h : execPwmStart x c s = .next t) :
    TimersWritten s t := by
  unfold execPwmStart at h
  repeat' split at h
  all_goals cases h
  · exact .refl s
  · next tid cid hc => exact (TimersWritten.refl s).setCce cid true (State.checkChannel_ok hc).2.2

theorem execPwmStop_timersWritten {x c : Sel} {s t : State} (h : execPwmStop x c s = .next t) :
    TimersWritten s t := by
  unfold execPwmStop at h
  repeat' split at h
  all_goals cases h
  · exact .refl s
  · next tid cid hc => exact (TimersWritten.refl s).setCce cid false (State.checkChannel_ok hc).2.2

theorem execMotorInit_timersWritten {s t : State} (hp : paramsValid s.params = true)
    (hr : s.seq.step = some .s4 ∨ s.seq.step = some .s5 → (s.timer Config.motorTimer).ready = true)
    (h : execMotorInit s = .next t) : TimersWritten s t := by
  unfold execMotorInit at h
  split at h <;> cases h
  · exact .refl s
  · exact .refl s
  · exact .configureTimer s _ (carrierPeriod_fits (paramsValid_bits hp).1 (by decide))
  · next hl =>
    have hready := hr (.inl hl)
    exact ((((TimersWritten.refl s).setCce .c1 true hready).setCce .c2 true
      (by simpa)).setCce .c3 true
      (by simpa)).setCce .c4 true (by simpa)
  · next hl =>
    have hready := hr (.inr hl)
    have h1 := (TimersWritten.refl s).writePair .one hready (Nat.zero_le _) (Nat.zero_le _)
    exact h1.writePair .two (by simpa) (Nat.zero_le _) (Nat.zero_le _)

theorem execMotorSetSpeed_timersWritten {id : Sel} {s t : State} (h : execMotorSetSpeed id s = .next t) :
    TimersWritten s t := by
  unfold execMotorSetSpeed at h
  repeat' split at h
  all_goals cases h
  · exact .refl s
  · next a ha =>
    have hduty := encodeSpeed_bounds s.deadband.toNat (sint32 s.seq.arg)
    exact (TimersWritten.refl s).writePair a (State.checkActuator_ok ha).2 (motorPulse_le _ hduty.1)
      (motorPulse_le _ hduty.2.1)

theorem execMotorStop_timersWritten {id : Sel} {s t : State} (h : execMotorStop id s = .next t) :
    TimersWritten s t := by
  unfold execMotorStop at h
  repeat' split at h
  all_goals cases h
  · exact .refl s
  · next a ha =>
    exact (TimersWritten.refl s).writePair a (State.checkActuator_ok ha).2 (Nat.zero_le _) (Nat.zero_le _)

theorem execServoInit_timersWritten {s t : State} (hp : paramsValid s.params = true)
    (hr : s.seq.step = some .s4 ∨ s.seq.step = some .s5 → (s.timer Config.servoTimer).ready = true)
    (h : execServoInit s = .next t) : TimersWritten s t := by
  unfold execServoInit at h
  split at h <;> cases h
  · exact .refl s
  · exact .refl s
  · exact .configureTimer s _ (carrierPeriod_fits (paramsValid_bits hp).1 (by decide))
  · next hl =>
    have hready := hr (.inl hl)
    exact ((TimersWritten.refl s).setCce .c1 true hready).setCce .c2 true (by simpa)
  · next hl =>
    have hready := hr (.inr hl)
    exact ((TimersWritten.refl s).writeServo .one _ hready).writeServo .two _ (by simpa)

theorem execServoSetAngle_timersWritten {id : Sel} {s t : State} (h : execServoSetAngle id s = .next t) :
    TimersWritten s t := by
  unfold execServoSetAngle at h
  repeat' split at h
  all_goals cases h
  · exact .refl s
  · next a ha => exact (TimersWritten.refl s).writeServo a _ (State.checkActuator_ok ha).2

/-- A command that writes no timer leaves them all. -/
theorem TimersWritten.of_not_writesTimer {i : Instr} {s t : State} (h : exec i s = .next t)
    (hi : ∀ j, ¬ writesTimer i j) : TimersWritten s t :=
  .of_timer_eq fun j => ((exec_shape h).timer_eq_or j).resolve_right (hi j)

/-- Everything a micro-step does to the timers, from a state in which its command may stand there. -/
theorem exec_timersWritten {i : Instr} {l : MicroStep} {s t : State} (hp : paramsValid s.params = true)
    (hl : s.seq.step = some l) (hi : stepInv s i l) (h : exec i s = .next t) : TimersWritten s t := by
  cases i with
  | pwmInit x => exact execPwmInit_timersWritten hp h
  | pwmSetDuty x c => exact execPwmSetDuty_timersWritten h
  | pwmStart x c => exact execPwmStart_timersWritten h
  | pwmStop x c => exact execPwmStop_timersWritten h
  | motorInit =>
    refine execMotorInit_timersWritten hp (fun hstep => hi.2 ?_) h
    simpa [hl] using hstep
  | motorSetSpeed id => exact execMotorSetSpeed_timersWritten h
  | motorStop id => exact execMotorStop_timersWritten h
  | servoInit =>
    refine execServoInit_timersWritten hp (fun hstep => hi.2 ?_) h
    simpa [hl] using hstep
  | servoSetAngle id => exact execServoSetAngle_timersWritten h
  | _ => exact .of_not_writesTimer h (by simp [writesTimer])

/-! ## The active copies under a command (R50, R174, R184) -/

/-- `y` has the active copies and the prescaler count of `x`. -/
structure SameActive (x y : Timer) : Prop where
  pscAct : y.pscAct = x.pscAct
  arrAct : y.arrAct = x.arrAct
  pscCnt : y.pscCnt = x.pscCnt
  ccrAct : ∀ c, (y.ch c).ccrAct = (x.ch c).ccrAct

theorem SameActive.refl (x : Timer) : SameActive x x := ⟨rfl, rfl, rfl, fun _ => rfl⟩

theorem SameActive.of_eq {x y : Timer} (h : y = x) : SameActive x y := h ▸ .refl y

/-- Whatever is said of a changed active copy or prescaler count holds of a timer that keeps them. -/
theorem SameActive.no_change {x y : Timer} (h : SameActive x y) {P Q : Prop} :
    (y.pscAct ≠ x.pscAct ∨ y.arrAct ≠ x.arrAct ∨ (∃ c, (y.ch c).ccrAct ≠ (x.ch c).ccrAct) → P)
      ∧ (y.pscCnt ≠ x.pscCnt → Q) := by
  refine ⟨?_, fun hne => absurd h.pscCnt hne⟩
  rintro (hne | hne | ⟨c, hne⟩)
  · exact absurd h.pscAct hne
  · exact absurd h.arrAct hne
  · exact absurd (h.ccrAct c) hne

theorem SameActive.trans {x y z : Timer} (h : SameActive x y) (h' : SameActive y z) : SameActive x z :=
  ⟨h'.pscAct.trans h.pscAct, h'.arrAct.trans h.arrAct, h'.pscCnt.trans h.pscCnt,
    fun c => (h'.ccrAct c).trans (h.ccrAct c)⟩

/-- `y` has the active copies of `x`, or `x` was stopped and the forced load has started it, its counters still 0. -/
def ActiveOrStarted (x y : Timer) : Prop :=
  SameActive x y ∨ (x.cen = false ∧ y.cen = true ∧ y.pscCnt = x.pscCnt)

theorem ActiveOrStarted.sameActive {x y z : Timer} (h : ActiveOrStarted x y) (h' : SameActive y z)
    (hc : z.cen = y.cen) : ActiveOrStarted x z := by
  rcases h with h | ⟨h0, h1, h2⟩
  · exact .inl (h.trans h')
  · exact .inr ⟨h0, hc.trans h1, h'.pscCnt.trans h2⟩

theorem SameActive.setCce (t : Timer) (c : ChanId) (b : Bool) : SameActive t (t.setCce c b) := by
  refine ⟨by simp, by simp, by simp, fun d => ?_⟩
  rw [Timer.ch_setCce]
  split
  · next hd => rw [hd]
  · rfl

/-- A buffered compare write leaves the active copy (R183). -/
theorem SameActive.writeCcr {t : Timer} {c : ChanId} (v : BitVec 32) (ho : (t.ch c).ocpe = true) :
    SameActive t (t.writeCcr c v) := by
  refine ⟨by simp, by simp, by simp, fun d => ?_⟩
  rw [Timer.ch_writeCcr]
  split
  · next hd => rw [hd, Channel.writeCcr_buffered _ _ ho]
  · rfl

/-- On a running timer the configuration only preloads; on a stopped one the forced load starts it (R174). -/
theorem TimerInv.configure_activeOrStarted {bits psc : Nat} {t : Timer} (h : TimerInv bits psc t) (p : BitVec 16)
    (a : BitVec 32) : ActiveOrStarted t (t.configure p a) := by
  cases hc : t.cen with
  | true =>
    rw [Timer.configure_running t p a hc]
    exact .inl ⟨rfl, rfl, rfl, fun c => by cases c <;> rfl⟩
  | false =>
    have hr : t.ready = false := by
      by_contra hr
      have hcen := (h.on (by simpa using hr)).1
      rw [hc] at hcen
      cases hcen
    refine .inr ⟨hc, Timer.configure_cen t p a, ?_⟩
    rw [Timer.configure_stopped t p a hc, h.off hr]
    rfl

theorem TimerWrites.activeOrStarted {bits psc : Nat} {x y : Timer} (hb : bits ≤ 32) (hp : psc < 2 ^ 16)
    (hx : TimerInv bits psc x) (h : TimerWrites bits psc x y) : ActiveOrStarted x y := by
  induction h with
  | refl => exact .inl (.refl x)
  | configure _ => exact hx.configure_activeOrStarted _ _
  | setCce c b _ _ ih => exact ih.sameActive (.setCce _ c b) (Timer.setCce_cen _ c b)
  | writeCcr c hw hr _ ih =>
    have ho := ((hw.timerInv hb hp hx).on hr).2.2 c
    exact ih.sameActive (.writeCcr _ ho.2) (Timer.writeCcr_cen _ c _)

/-! ## The active copies under a tick (R170, R171) -/

theorem Channel.update_eq_channelUpdated (x : Channel) : x.update = channelUpdated x := by
  cases x
  simp only [Channel.update, channelUpdated]
  split <;> rfl

theorem Timer.update_eq_timerWrapped (t : Timer) : Timer.update { t with pscCnt := 0, cnt := 0 } = timerWrapped t := by
  simp [Timer.update, Timer.mapCh, timerWrapped, Channel.update_eq_channelUpdated]

/-- A tick wraps the counter with an update event, or leaves the active copies. -/
theorem Timer.tick_wraps_or_keeps (t : Timer) :
    t.tick = timerWrapped t
      ∨ (t.tick.pscAct = t.pscAct ∧ t.tick.arrAct = t.arrAct ∧ ∀ c, (t.tick.ch c).ccrAct = (t.ch c).ccrAct) := by
  rcases t.tick_cases with ⟨_, h⟩ | ⟨_, _, h⟩ | ⟨_, _, h⟩
  · rw [h]
    exact .inr ⟨rfl, rfl, fun c => by cases c <;> rfl⟩
  · rw [h]
    exact .inr ⟨rfl, rfl, fun c => by cases c <;> rfl⟩
  · exact .inl (h.trans t.update_eq_timerWrapped)

/-! ## The active copies under every move (R50) -/

/-- No host access reaches a timer. -/
theorem State.hostStep_timer {s t : State} {a : HostAccess} (h : s.hostStep a = .next t) (j : TimerId) :
    t.timer j = s.timer j := by
  rcases State.hostStep_next h with rfl | ⟨v, rfl⟩ | ⟨w, r, rfl⟩
  · rfl
  · rfl
  · rcases s.writeReg_cases w r with ⟨_, h⟩ | ⟨_, h⟩ | h | h | h <;> rw [h] <;> rfl

/-- What a sequencer move does to a timer of a state that meets the invariant. -/
theorem State.sequencerStep_activeOrStarted {s t : State} (hB : BlockInv s) (h : s.sequencerStep = .next t)
    (j : TimerId) : ActiveOrStarted (s.timer j) (t.timer j) := by
  rcases State.sequencerStep_next h with ⟨_, rfl⟩ | ⟨hm, i, hd, he⟩ | ⟨_, _, _, rfl⟩
  · exact .inl (.refl _)
  · obtain ⟨_, l, hl, _, hi⟩ := (seqInv_run hm hd).mp hB.seq
    have hpsc := pscVal_lt j (paramsValid_clk hB.params j).2.2
    exact (exec_timersWritten hB.params hl hi he j).activeOrStarted (paramsValid_bits hB.params).2 hpsc (hB.timers j)
  · exact .inl (.refl _)

/-- Settles O39: a tick wraps or leaves the active copies, and a command leaves them or starts a stopped timer. -/
theorem activeCopiesChangeOnlyAtUpdates : Obligations.ActiveCopiesChangeOnlyAtUpdates := by
  intro s t m i hB h hreset
  cases m with
  | host a =>
    exact (SameActive.of_eq (State.hostStep_timer h i)).no_change
  | converter e =>
    cases h
    exact (SameActive.of_eq (State.timer_converterMove s e i)).no_change
  | sequencer =>
    rcases State.sequencerStep_activeOrStarted hB h i with hk | ⟨hstopped, hstarted, hcnt⟩
    · exact hk.no_change
    · exact ⟨fun _ => .inr ⟨rfl, hstopped, hstarted⟩, fun hne => absurd hcnt hne⟩
  | tick j =>
    cases h
    by_cases hj : i = j ∧ (s.timer j).cen = true
    · obtain ⟨rfl, hcen⟩ := hj
      have ht : (s.tickMove i).timer i = (s.timer i).tick := by simp [State.timer_tickMove, hcen]
      rw [ht]
      refine ⟨fun hne => .inl ⟨rfl, hcen, ?_⟩, fun _ => ⟨rfl, hcen⟩⟩
      refine (s.timer i).tick_wraps_or_keeps.resolve_right ?_
      rintro ⟨hpsc, harr, hccr⟩
      simp [hpsc, harr, hccr] at hne
    · exact (SameActive.of_eq (by rw [State.timer_tickMove, if_neg hj])).no_change
  | reset => exact absurd rfl hreset

end Sys2Proof.Machine
end

section
/-! The invariant is kept by the moves of the host, the converter and the timers: none of them writes the sequencer but
a `CMD` write, and what each does to the ADC suits every micro-step a command may stand at (R147). -/

namespace Sys2Proof.Machine

/-! ## The ADC's part of the invariant -/

/-- What the converter may do under a running command: set readings and clear its own requests. -/
structure AdcKept (a b : Adc) : Prop where
  ready  : b.ready = a.ready
  adon   : b.adon = a.adon
  cont   : b.cont = a.cont
  align  : b.align = a.align
  swtrig : b.swtrig = a.swtrig
  div    : b.div = a.div
  smp    : b.smp = a.smp
  chsel  : b.chsel = a.chsel
  rstcal : a.rstcal = false → b.rstcal = false
  cal    : a.cal = false → b.cal = false
  idle   : notConverting a → notConverting b
  busy   : converting a → converting b

theorem AdcKept.refl (a : Adc) : AdcKept a a :=
  ⟨rfl, rfl, rfl, rfl, rfl, rfl, rfl, rfl, id, id, id, id⟩

theorem AdcKept.converterStep (a : Adc) (e : ConverterEvent) : AdcKept a (a.converterStep e) := by
  rcases a.converterStep_cases e with h | ⟨_, _, _, h⟩ | ⟨_, _, _, h⟩ | ⟨_, hpend, v, _, h⟩ <;> rw [h]
  · exact .refl a
  · exact ⟨rfl, rfl, rfl, rfl, rfl, rfl, rfl, rfl, fun _ => rfl, id, id, id⟩
  · exact ⟨rfl, rfl, rfl, rfl, rfl, rfl, rfl, rfl, id, fun _ => rfl, id, id⟩
  · refine ⟨rfl, rfl, rfl, rfl, rfl, rfl, rfl, rfl, id, id, fun hidle => ?_, fun _ => rfl⟩
    exact absurd (hpend.symm.trans hidle.1) nofun

theorem AdcInv.converterStep {a : Adc} (h : AdcInv a) (e : ConverterEvent) : AdcInv (a.converterStep e) := by
  rcases a.converterStep_cases e with he | ⟨hon, _, _, he⟩ | ⟨hon, _, _, he⟩ | ⟨hon, _, v, _, he⟩ <;> rw [he]
  · exact h
  · exact ⟨h.dr, h.chsel, fun hoff => absurd (hon.symm.trans hoff) nofun, h.on,
      fun hr => ⟨hon, rfl, (h.ready hr).2.2⟩⟩
  · exact ⟨h.dr, h.chsel, fun hoff => absurd (hon.symm.trans hoff) nofun, h.on,
      fun hr => ⟨hon, (h.ready hr).2.1, rfl⟩⟩
  · refine ⟨?_, h.chsel, fun hoff => absurd (hon.symm.trans hoff) nofun, h.on, h.ready⟩
    have hv := v.isLt
    simp only [BitVec.toNat_setWidth, Config.adcMax]
    omega

theorem AdcInv.of_reset : AdcInv Adc.reset := ⟨by decide, by decide, by decide, by decide, by decide⟩

/-! ## The sequencer's part under a move of another agent -/

/-- `t` has the sequencer and the budget of `s`, and its units are as good for the running command. -/
structure CommandKept (s t : State) : Prop where
  seq     : t.seq = s.seq
  timeout : t.timeout = s.timeout
  params  : t.params = s.params
  done    : t.status.done = s.status.done
  adc     : AdcKept s.adc t.adc
  ready   : ∀ j, (t.timer j).ready = (s.timer j).ready

theorem CommandKept.keeps_pollsBelow {s t : State} (h : CommandKept s t) (hs : pollsBelow s) : pollsBelow t := by
  unfold pollsBelow
  rw [h.seq, h.timeout]
  exact hs

theorem CommandKept.keeps_stepInv {s t : State} (h : CommandKept s t) {i : Instr} {l : MicroStep}
    (hs : stepInv s i l) : stepInv t i l := by
  have ha := h.adc
  cases i with
  | adcInit =>
    obtain ⟨hidle, hcfg, hset, hon, hrst, hcal, hpolls⟩ := hs
    refine ⟨ha.idle hidle, fun hl => ?_, fun hl => ?_, fun hl => ha.adon.trans (hon hl), fun hl => ha.rstcal (hrst hl),
      fun hl => ha.cal (hcal hl), fun hl => h.keeps_pollsBelow (hpolls hl)⟩
    · rw [ha.ready, ha.div]
      exact hcfg hl
    · rw [ha.cont, ha.align, ha.swtrig, ha.smp]
      exact hset hl
  | adcSample ch =>
    obtain ⟨hready, hwait, hidle⟩ := hs
    refine ⟨fun hl => ?_, fun hl => ?_, fun hl => ha.idle (hidle hl)⟩
    · rw [ha.ready]
      exact hready hl
    · obtain ⟨hbusy, hch, hpolls⟩ := hwait hl
      exact ⟨ha.busy hbusy, ha.chsel.trans hch, h.keeps_pollsBelow hpolls⟩
  | adcAvg ch n =>
    obtain ⟨hready, hcount, hwait, hidle, hlast⟩ := hs
    refine ⟨fun hl => ?_, fun hl => ?_, fun hl => ?_, fun hl => ha.idle (hidle hl), fun hl => ?_⟩
    · rw [ha.ready]
      exact hready hl
    · rw [h.seq]
      exact hcount hl
    · obtain ⟨hbusy, hch, hpolls⟩ := hwait hl
      exact ⟨ha.busy hbusy, ha.chsel.trans hch, h.keeps_pollsBelow hpolls⟩
    · rw [h.seq]
      exact hlast hl
  | pwmInit x =>
    refine ⟨ha.idle hs.1, fun hl => ?_⟩
    rw [h.params, h.seq]
    exact hs.2 hl
  | motorInit => exact ⟨ha.idle hs.1, fun hl => (h.ready _).trans (hs.2 hl)⟩
  | servoInit => exact ⟨ha.idle hs.1, fun hl => (h.ready _).trans (hs.2 hl)⟩
  | _ => exact ha.idle hs

theorem CommandKept.keeps_seqInv {s t : State} (h : CommandKept s t) (hs : seqInv s) : seqInv t := by
  cases hm : s.seq.mode with
  | idle =>
    obtain ⟨hstep, hidle⟩ := (seqInv_idle hm).mp hs
    exact (seqInv_idle (by rw [h.seq, hm])).mpr ⟨by rw [h.seq, hstep], h.adc.idle hidle⟩
  | run =>
    have hmt : t.seq.mode = .run := by rw [h.seq, hm]
    cases hd : decode s.seq.cmd with
    | error e =>
      obtain ⟨hdone, hstep, hidle⟩ := (seqInv_illegal hm hd).mp hs
      exact (seqInv_illegal hmt (by rw [h.seq, hd])).mpr
        ⟨h.done.trans hdone, by rw [h.seq, hstep], h.adc.idle hidle⟩
    | ok i =>
      obtain ⟨hdone, l, hstep, hl, hi⟩ := (seqInv_run hm hd).mp hs
      exact (seqInv_run hmt (by rw [h.seq, hd])).mpr
        ⟨h.done.trans hdone, l, by rw [h.seq, hstep], hl, h.keeps_stepInv hi⟩

/-! ## The host, the converter and the timers -/

/-- A state that differs in fields the invariant does not read, short of the sequencer and the units. -/
theorem BlockInv.of_eq {s t : State} (h : BlockInv s) (hparams : t.params = s.params)
    (htimer : ∀ j, t.timer j = s.timer j) (hadc : t.adc = s.adc) (hseq : seqInv t)
    (herr : t.status.lastErr = s.status.lastErr) (hdead : t.deadband = s.deadband) : BlockInv t where
  params := by rw [hparams]; exact h.params
  timers j := by rw [hparams, htimer j]; exact h.timers j
  adc := by rw [hadc]; exact h.adc
  seq := hseq
  lastErr := by rw [herr]; exact h.lastErr
  deadband := by rw [hdead]; exact h.deadband

/-- Before S1 a command has established nothing, and needs no more than an idle converter (R147). -/
theorem stepInv_s1 {s : State} (i : Instr) (h : notConverting s.adc) : stepInv s i .s1 := by
  cases i <;> simp [stepInv, h]

theorem hasStep_s1 (i : Instr) : hasStep i .s1 = true := by cases i <;> rfl

/-- An accepted command stands at S1 with `DONE = 0`, whether its word is legal or not (R250). -/
theorem seqInv_accept {s : State} (w : Word) (h : notConverting s.adc) : seqInv (s.accept w) := by
  cases hd : decode w with
  | error e => exact (seqInv_illegal rfl hd).mpr ⟨rfl, rfl, h⟩
  | ok i => exact (seqInv_run rfl hd).mpr ⟨rfl, .s1, rfl, hasStep_s1 i, stepInv_s1 i h⟩

theorem BlockInv.writeReg {s : State} (h : BlockInv s) (w : Word) (r : Reg) : BlockInv (s.writeReg w r) := by
  rcases s.writeReg_cases w r with ⟨hm, hr⟩ | ⟨_, hr⟩ | hr | hr | hr <;> rw [hr]
  · have hidle := ((seqInv_idle hm).mp h.seq).2
    exact h.of_eq rfl (fun _ => rfl) rfl (seqInv_accept w hidle) rfl rfl
  · exact h.of_eq rfl (fun _ => rfl) rfl h.seq rfl rfl
  · exact h.of_eq rfl (fun _ => rfl) rfl h.seq rfl rfl
  · exact h.of_eq rfl (fun _ => rfl) rfl h.seq rfl rfl
  · exact h

theorem BlockInv.hostStep {s t : State} (h : BlockInv s) {a : HostAccess} (ha : s.hostStep a = .next t) :
    BlockInv t := by
  rcases State.hostStep_next ha with rfl | ⟨v, rfl⟩ | ⟨w, r, rfl⟩
  · exact h
  · exact h.of_eq rfl (fun _ => rfl) rfl h.seq rfl rfl
  · exact h.writeReg w r

theorem BlockInv.converterMove {s : State} (h : BlockInv s) (e : ConverterEvent) : BlockInv (s.converterMove e) where
  params := h.params
  timers := h.timers
  adc := h.adc.converterStep e
  seq := CommandKept.keeps_seqInv (s := s) ⟨rfl, rfl, rfl, rfl, .converterStep s.adc e, fun _ => rfl⟩ h.seq
  lastErr := h.lastErr
  deadband := h.deadband

@[simp] theorem State.tickMove_ready (s : State) (i j : TimerId) :
    ((s.tickMove i).timer j).ready = (s.timer j).ready := by
  rw [State.timer_tickMove]
  split
  · next hj => rw [hj.1, Timer.tick_ready]
  · rfl

theorem BlockInv.tickMove {s : State} (h : BlockInv s) (i : TimerId) : BlockInv (s.tickMove i) where
  params := by simpa using h.params
  timers j := by
    rw [State.tickMove_params, State.timer_tickMove]
    split
    · next hj =>
      rw [hj.1]
      exact (h.timers i).tick hj.2
    · exact h.timers j
  adc := by simpa using h.adc
  seq := CommandKept.keeps_seqInv ⟨by simp, by simp, by simp, by simp, by rw [State.tickMove_adc]; exact .refl _,
    s.tickMove_ready i⟩ h.seq
  lastErr := by simpa using h.lastErr
  deadband := by simpa using h.deadband

/-! ## The reset -/

/-- A reset meets the invariant under any legal parameter set (R280). -/
theorem BlockInv.systemReset {s : State} (hp : paramsValid s.params = true) : BlockInv s.systemReset where
  params := hp
  timers j := by
    have hbits : 1 ≤ s.params.timerBits := Nat.le_trans (by decide) (paramsValid_bits hp).1
    cases j <;> exact TimerInv.of_reset hbits
  adc := .of_reset
  seq := ⟨rfl, rfl, rfl⟩
  lastErr := Nat.zero_le 5
  deadband := Nat.zero_le 100

end Sys2Proof.Machine
end

section
/-! The invariant is kept by the micro-steps of the commands (R130 to R147, R180 to R186, R211 to R233), and so by every
step of the block. -/

namespace Sys2Proof.Machine

/-! ## A command at one of its micro-steps -/

/-- The command `i` runs in `s` and stands before its micro-step `l`, in a state that meets the invariant. -/
structure Standing (i : Instr) (l : MicroStep) (s : State) : Prop where
  block : BlockInv s
  mode  : s.seq.mode = .run
  cmd   : decode s.seq.cmd = .ok i
  done  : s.status.done = false
  step  : s.seq.step = some l
  label : hasStep i l = true
  inv   : stepInv s i l

theorem BlockInv.standing {s : State} (h : BlockInv s) {i : Instr} (hm : s.seq.mode = .run)
    (hd : decode s.seq.cmd = .ok i) : ∃ l, Standing i l s := by
  obtain ⟨hdone, l, hl, hlabel, hi⟩ := (seqInv_run hm hd).mp h.seq
  exact ⟨l, h, hm, hd, hdone, hl, hlabel, hi⟩

theorem Standing.label_eq {i : Instr} {l l' : MicroStep} {s : State} (h : Standing i l s)
    (hl : s.seq.step = some l') : l' = l := Option.some.inj (hl.symm.trans h.step)

/-! ## Where a micro-step leaves the sequencer -/

theorem seqInv_complete {u : State} (h : notConverting u.adc) : seqInv u.complete :=
  (seqInv_idle rfl).mpr ⟨rfl, h⟩

theorem seqInv_raise {u : State} (e : ErrorCode) (h : notConverting u.adc) : seqInv (u.raise e) :=
  (seqInv_idle rfl).mpr ⟨rfl, h⟩

theorem stepInv_goto {u : State} {i : Instr} {l l' : MicroStep} (h : stepInv u i l) : stepInv (u.goto l') i l := by
  cases i <;> exact h

/-- A command that goes on stands at the micro-step it goes to. -/
theorem Standing.seqInv_goto {i : Instr} {l : MicroStep} {s u : State} (h : Standing i l s) (l' : MicroStep)
    (hm : u.seq.mode = s.seq.mode) (hc : u.seq.cmd = s.seq.cmd) (hst : u.status = s.status)
    (hl : hasStep i l' = true) (hi : stepInv u i l') : seqInv (u.goto l') :=
  (seqInv_run (s := u.goto l') (hm.trans h.mode) ((congrArg decode hc).trans h.cmd)).mpr
    ⟨(congrArg Status.done hst).trans h.done, l', rfl, hl, stepInv_goto hi⟩

/-! ## A poll (R137) -/

theorem pollsBelow_clear {s : State} (h : s.seq.polls = 0#32) : pollsBelow s := by
  by_cases h0 : s.timeout = 0#32
  · exact .inl h0
  · refine .inr ?_
    rw [h]
    have hne : s.timeout.toNat ≠ 0 := fun hz => h0 (BitVec.eq_of_toNat_eq hz)
    simp only [BitVec.toNat_ofNat]
    omega

/-- A failed poll that does not reach the budget leaves the counter below it. -/
theorem pollsBelow_counted {s : State} (h : pollsBelow s) (h0 : s.timeout ≠ 0#32)
    (hne : s.seq.polls + 1 ≠ s.timeout) :
    pollsBelow { s with seq := { s.seq with polls := s.seq.polls + 1 } } := by
  refine .inr ?_
  have hlt := h.resolve_left h0
  show (s.seq.polls + 1).toNat < s.timeout.toNat
  bv_omega

theorem stepInv_polls {s : State} {i : Instr} {l : MicroStep} {p : Word} (h : stepInv s i l)
    (hp : pollsBelow { s with seq := { s.seq with polls := p } }) :
    stepInv { s with seq := { s.seq with polls := p } } i l := by
  cases i with
  | adcInit =>
    obtain ⟨hidle, hcfg, hset, hon, hrst, hcal, _⟩ := h
    exact ⟨hidle, hcfg, hset, hon, hrst, hcal, fun _ => hp⟩
  | adcSample ch =>
    obtain ⟨hready, hwait, hidle⟩ := h
    exact ⟨hready, fun hl => ⟨(hwait hl).1, (hwait hl).2.1, hp⟩, hidle⟩
  | adcAvg ch n =>
    obtain ⟨hready, hcount, hwait, hidle, hlast⟩ := h
    exact ⟨hready, hcount, fun hl => ⟨(hwait hl).1, (hwait hl).2.1, hp⟩, hidle, hlast⟩
  | _ => exact h

theorem AdcInv.clearPend {a : Adc} (h : AdcInv a) : AdcInv { a with pend := false } :=
  ⟨h.dr, h.chsel, fun hoff => by
    obtain ⟨hrst, hcal, heoc, _, hready⟩ := h.off hoff
    exact ⟨hrst, hcal, heoc, rfl, hready⟩, h.on, h.ready⟩

/-- What the micro-steps of a waiting command must keep. -/
def UnitKept (t : State) : Prop := AdcInv t.adc ∧ seqInv t

/-- A poll keeps the invariant when going on does, a failed one because its counter stays below the budget (R137). -/
theorem Standing.poll {i : Instr} {l : MicroStep} {s o : State} {c : Bool} (h : Standing i l s) (hp : pollsBelow s)
    (heoc : c = false → s.adc.eoc = false) (ho : c = true → UnitKept o) : UnitKept (s.poll c o) := by
  rcases s.poll_cases c o with ⟨hc, he⟩ | ⟨_, _, he⟩ | ⟨hc, _, _, he⟩ | ⟨_, h0, hne, he⟩ <;> rw [he]
  · exact ho hc
  · exact ⟨h.block.adc, h.block.seq⟩
  · exact ⟨h.block.adc.clearPend, seqInv_raise _ ⟨rfl, heoc hc⟩⟩
  · have hi := stepInv_polls h.inv (pollsBelow_counted hp h0 hne)
    refine ⟨h.block.adc, ?_⟩
    exact (seqInv_run (s := { s with seq := { s.seq with polls := s.seq.polls + 1 } }) h.mode h.cmd).mpr
      ⟨h.done, l, h.step, h.label, hi⟩

/-! ## `ADC_INIT` (R132) -/

theorem AdcInv.unready {a : Adc} (h : AdcInv a) : AdcInv { a with ready := false, div := 6#4 } :=
  ⟨h.dr, h.chsel, fun hoff => by
    obtain ⟨hrst, hcal, heoc, hpend, _⟩ := h.off hoff
    exact ⟨hrst, hcal, heoc, hpend, rfl⟩, fun hon => by
    obtain ⟨hcont, halign, htrig, _, hsmp⟩ := h.on hon
    exact ⟨hcont, halign, htrig, rfl, hsmp⟩, nofun⟩

theorem AdcInv.setUp {a : Adc} (h : AdcInv a) (hdiv : a.div = 6#4) :
    AdcInv { a with cont := false, swtrig := true, align := false, smp := 7#3 } :=
  ⟨h.dr, h.chsel, h.off, fun _ => ⟨rfl, rfl, rfl, hdiv, rfl⟩, h.ready⟩

theorem AdcInv.switchOn {a : Adc} (h : AdcInv a) (hready : a.ready = false) (hdiv : a.div = 6#4)
    (hset : a.cont = false ∧ a.align = false ∧ a.swtrig = true ∧ a.smp = 7#3) : AdcInv { a with adon := true } := by
  obtain ⟨hcont, halign, htrig, hsmp⟩ := hset
  exact ⟨h.dr, h.chsel, nofun, fun _ => ⟨hcont, halign, htrig, hdiv, hsmp⟩,
    fun hr => absurd (hready.symm.trans hr) nofun⟩

theorem AdcInv.startRstcal {a : Adc} (h : AdcInv a) (hon : a.adon = true) (hready : a.ready = false) :
    AdcInv { a with rstcal := true } :=
  ⟨h.dr, h.chsel, fun hoff => absurd (hon.symm.trans hoff) nofun, h.on,
    fun hr => absurd (hready.symm.trans hr) nofun⟩

theorem AdcInv.startCal {a : Adc} (h : AdcInv a) (hon : a.adon = true) (hready : a.ready = false) :
    AdcInv { a with cal := true } :=
  ⟨h.dr, h.chsel, fun hoff => absurd (hon.symm.trans hoff) nofun, h.on,
    fun hr => absurd (hready.symm.trans hr) nofun⟩

theorem AdcInv.makeReady {a : Adc} (h : AdcInv a) (hon : a.adon = true) (hrst : a.rstcal = false)
    (hcal : a.cal = false) : AdcInv { a with ready := true } :=
  ⟨h.dr, h.chsel, fun hoff => absurd (hon.symm.trans hoff) nofun, h.on, fun _ => ⟨hon, hrst, hcal⟩⟩

theorem Standing.adcInit {l : MicroStep} {s t : State} (h : Standing .adcInit l s)
    (he : execAdcInit s = .next t) : UnitKept t := by
  obtain ⟨hidle, hcfg, hset, hon, hrst, hcal, hpolls⟩ := h.inv
  have ha := h.block.adc
  unfold execAdcInit at he
  split at he <;> cases he
  all_goals obtain rfl := h.label_eq ‹_›
  · refine ⟨ha.unready, h.seqInv_goto .s2 rfl rfl rfl rfl ?_⟩
    exact ⟨hidle, fun _ => ⟨rfl, rfl⟩, nofun, nofun, nofun, nofun, nofun⟩
  · refine ⟨ha, h.seqInv_goto .s3 rfl rfl rfl rfl ?_⟩
    exact ⟨hidle, fun _ => hcfg nofun, nofun, nofun, nofun, nofun, nofun⟩
  · obtain ⟨hready, hdiv⟩ := hcfg nofun
    refine ⟨ha.setUp hdiv, h.seqInv_goto .s4 rfl rfl rfl rfl ?_⟩
    exact ⟨hidle, fun _ => ⟨hready, hdiv⟩, fun _ => ⟨rfl, rfl, rfl, rfl⟩, nofun, nofun, nofun, nofun⟩
  · obtain ⟨hready, hdiv⟩ := hcfg nofun
    have hmode := hset (by decide)
    refine ⟨ha.switchOn hready hdiv hmode, h.seqInv_goto .s5 rfl rfl rfl rfl ?_⟩
    exact ⟨hidle, fun _ => ⟨hready, hdiv⟩, fun _ => hmode, fun _ => rfl, nofun, nofun, nofun⟩
  · refine ⟨ha, h.seqInv_goto .s6 rfl rfl rfl rfl ?_⟩
    exact ⟨hidle, fun _ => hcfg nofun, fun _ => hset (by decide), fun _ => hon (by decide), nofun, nofun, nofun⟩
  · refine ⟨ha.startRstcal (hon (by decide)) (hcfg nofun).1, h.seqInv_goto .s7 rfl rfl rfl rfl ?_⟩
    exact ⟨hidle, fun _ => hcfg nofun, fun _ => hset (by decide), fun _ => hon (by decide), nofun, nofun,
      fun _ => pollsBelow_clear rfl⟩
  · refine h.poll (hpolls (by decide)) (fun _ => hidle.2) fun hdone => ?_
    refine ⟨ha, h.seqInv_goto .s8 rfl rfl rfl rfl ?_⟩
    exact ⟨hidle, fun _ => hcfg nofun, fun _ => hset (by decide), fun _ => hon (by decide),
      fun _ => by simpa using hdone, nofun, nofun⟩
  · refine ⟨ha.startCal (hon (by decide)) (hcfg nofun).1, h.seqInv_goto .s9 rfl rfl rfl rfl ?_⟩
    exact ⟨hidle, fun _ => hcfg nofun, fun _ => hset (by decide), fun _ => hon (by decide),
      fun _ => hrst (by decide), nofun, fun _ => pollsBelow_clear rfl⟩
  · refine h.poll (hpolls (by decide)) (fun _ => hidle.2) fun hdone => ?_
    refine ⟨ha, h.seqInv_goto .s10 rfl rfl rfl rfl ?_⟩
    exact ⟨hidle, fun _ => hcfg nofun, fun _ => hset (by decide), fun _ => hon (by decide),
      fun _ => hrst (by decide), fun _ => by simpa using hdone, nofun⟩
  · exact ⟨ha.makeReady (hon (by decide)) (hrst (by decide)) (hcal rfl), seqInv_complete hidle⟩

/-! ## `ADC_SAMPLE` (R138) -/

/-- `START(ch)` on a ready converter (R136). -/
theorem AdcInv.startConversion {a : Adc} (h : AdcInv a) {ch : Sel} (hready : a.ready = true) (hch : ch.toNat ≤ 9) :
    AdcInv { a with chsel := ch, eoc := false, pend := true } :=
  ⟨h.dr, hch, fun hoff => absurd ((h.ready hready).1.symm.trans hoff) nofun, h.on, h.ready⟩

theorem AdcInv.clearEoc {a : Adc} (h : AdcInv a) : AdcInv { a with eoc := false } :=
  ⟨h.dr, h.chsel, fun hoff => by
    obtain ⟨hrst, hcal, _, hpend, hready⟩ := h.off hoff
    exact ⟨hrst, hcal, rfl, hpend, hready⟩, h.on, h.ready⟩

/-- A taken reading leaves no conversion in flight (R148). -/
theorem notConverting_takeReading {s : State} (h : converting s.adc) (heoc : s.adc.eoc = true) :
    notConverting s.takeReading.adc := by
  refine ⟨?_, rfl⟩
  have hpend : s.adc.pend = !s.adc.eoc := h
  rw [heoc] at hpend
  exact hpend

theorem sel_le_nine {ch : Sel} (h : ¬ 9#4 < ch) : ch.toNat ≤ 9 := by bv_omega

theorem Standing.adcSample {ch : Sel} {l : MicroStep} {s t : State} (h : Standing (.adcSample ch) l s)
    (he : execAdcSample ch s = .next t) : UnitKept t := by
  obtain ⟨hready, hwait, hidle⟩ := h.inv
  have ha := h.block.adc
  unfold execAdcSample at he
  repeat' split at he
  all_goals cases he
  all_goals obtain rfl := h.label_eq ‹_›
  · exact ⟨ha, seqInv_raise _ (hidle nofun)⟩
  · exact ⟨ha, seqInv_raise _ (hidle nofun)⟩
  · next hch hrdy =>
    refine ⟨ha, h.seqInv_goto .s2 rfl rfl rfl rfl ?_⟩
    exact ⟨fun _ => ⟨sel_le_nine hch, by simpa using hrdy⟩, nofun, fun _ => hidle nofun⟩
  · obtain ⟨hch, hrdy⟩ := hready nofun
    refine ⟨ha.startConversion hrdy hch, h.seqInv_goto .s3 rfl rfl rfl rfl ?_⟩
    exact ⟨fun _ => ⟨hch, hrdy⟩, fun _ => ⟨rfl, rfl, pollsBelow_clear rfl⟩, fun hne => absurd rfl hne⟩
  · obtain ⟨hbusy, _, hpolls⟩ := hwait rfl
    refine h.poll hpolls id fun heoc => ⟨ha.clearEoc, h.seqInv_goto .s4 rfl rfl rfl rfl ?_⟩
    exact ⟨fun _ => hready nofun, nofun, fun _ => notConverting_takeReading hbusy heoc⟩
  · exact ⟨ha, seqInv_complete (hidle nofun)⟩

/-! ## `ADC_AVG` (R139 to R141) -/

/-- One more sample of at most 4095 keeps the accumulator exact and within its bound (R140, R141). -/
theorem satAdd_bound {acc : BitVec 20} {v : BitVec 12} {k : Nat} (hk : k < 255)
    (h : acc.toNat ≤ Config.adcMax * k) : (satAdd acc v).toNat ≤ Config.adcMax * (k + 1) := by
  have hv := v.isLt
  simp only [Config.adcMax] at h ⊢
  rw [satAdd_toNat (by omega)]
  omega

/-- After one more sample the command goes to the next one or to its end, with the count and the sum it needs there. -/
theorem stepInv_accumulate {s : State} {ch : Sel} {n : Byte} (hready : ch.toNat ≤ 9 ∧ n ≠ 0#8 ∧ s.adc.ready = true)
    (hk : s.seq.k.toNat < n.toNat) (hacc : s.seq.acc.toNat ≤ Config.adcMax * s.seq.k.toNat)
    (hidle : notConverting s.takeReading.adc) :
    stepInv (s.accumulate n) (.adcAvg ch n) (if s.seq.k.toNat + 1 < n.toNat then .s3 else .s5) := by
  have hn := n.isLt
  have hk1 : (s.seq.k + 1).toNat = s.seq.k.toNat + 1 := by bv_omega
  have hsum : (satAdd s.seq.acc (s.adc.dr.setWidth 12)).toNat ≤ Config.adcMax * (s.seq.k + 1).toNat := by
    rw [hk1]
    exact satAdd_bound (by omega) hacc
  split
  · next hmore =>
    have hlt : (s.seq.k + 1).toNat < n.toNat := by rwa [hk1]
    exact ⟨fun _ => hready, fun _ => ⟨hlt, hsum⟩, nofun, fun _ => hidle, nofun⟩
  · next hlast =>
    have hkn : s.seq.k + 1 = n := BitVec.eq_of_toNat_eq (by omega)
    exact ⟨fun _ => hready, nofun, nofun, fun _ => hidle, fun _ => ⟨hkn, by rw [← hkn]; exact hsum⟩⟩

theorem Standing.adcAvg {ch : Sel} {n : Byte} {l : MicroStep} {s t : State} (h : Standing (.adcAvg ch n) l s)
    (he : execAdcAvg ch n s = .next t) : UnitKept t := by
  obtain ⟨hready, hcount, hwait, hidle, hlast⟩ := h.inv
  have ha := h.block.adc
  unfold execAdcAvg at he
  repeat' split at he
  all_goals cases he
  all_goals obtain rfl := h.label_eq ‹_›
  · exact ⟨ha, seqInv_raise _ (hidle nofun)⟩
  · exact ⟨ha, seqInv_raise _ (hidle nofun)⟩
  · exact ⟨ha, seqInv_raise _ (hidle nofun)⟩
  · next hch hn hrdy =>
    refine ⟨ha, h.seqInv_goto .s2 rfl rfl rfl rfl ?_⟩
    exact ⟨fun _ => ⟨sel_le_nine hch, hn, by simpa using hrdy⟩, nofun, nofun, fun _ => hidle nofun, nofun⟩
  · have hrdy := hready nofun
    have hn : 0 < n.toNat := Nat.pos_of_ne_zero fun hz => hrdy.2.1 (BitVec.eq_of_toNat_eq hz)
    refine ⟨ha, h.seqInv_goto .s3 rfl rfl rfl rfl ?_⟩
    exact ⟨fun _ => hrdy, fun _ => ⟨hn, Nat.zero_le _⟩, nofun, fun _ => hidle nofun, nofun⟩
  · obtain ⟨hch, hn, hrdy⟩ := hready nofun
    refine ⟨ha.startConversion hrdy hch, h.seqInv_goto .s4 rfl rfl rfl rfl ?_⟩
    exact ⟨fun _ => ⟨hch, hn, hrdy⟩, fun _ => hcount (by decide), fun _ => ⟨rfl, rfl, pollsBelow_clear rfl⟩,
      fun hne => absurd rfl hne, nofun⟩
  · obtain ⟨hbusy, _, hpolls⟩ := hwait rfl
    obtain ⟨hk, hacc⟩ := hcount (by decide)
    refine h.poll hpolls id fun heoc => ⟨ha.clearEoc, h.seqInv_goto _ rfl rfl rfl ?_ ?_⟩
    · split <;> rfl
    · exact stepInv_accumulate (hready nofun) hk hacc (notConverting_takeReading hbusy heoc)
  · exact ⟨ha, seqInv_complete (hidle nofun)⟩

/-! ## The commands that do not wait -/

/-- A command that does not wait has no conversion in flight at any of its micro-steps (R147). -/
theorem stepInv.notConverting {s : State} {i : Instr} {l : MicroStep} (h : stepInv s i l) (hw : waits i = false) :
    notConverting s.adc := by
  cases i with
  | adcInit | adcSample | adcAvg => cases hw
  | pwmInit | motorInit | servoInit => exact h.1
  | _ => exact h

theorem Standing.pwmInit {x : Sel} {l : MicroStep} {s t : State} (h : Standing (.pwmInit x) l s)
    (he : execPwmInit x s = .next t) : seqInv t := by
  have hidle := h.inv.1
  unfold execPwmInit at he
  repeat' split at he
  all_goals cases he
  · exact seqInv_raise _ hidle
  · exact seqInv_raise _ hidle
  · next tid htid _ p hp => exact h.seqInv_goto .s2 rfl rfl rfl rfl ⟨hidle, fun _ => ⟨tid, p, htid, hp⟩⟩
  · exact seqInv_complete (by simpa using hidle)

@[simp] theorem State.configureTimer_ready (s : State) (t : TimerId) (p : Nat) :
    ((s.configureTimer t p).timer t).ready = true := by
  simp [State.timer_configureTimer]

theorem Standing.motorInit {l : MicroStep} {s t : State} (h : Standing .motorInit l s)
    (he : execMotorInit s = .next t) : seqInv t := by
  obtain ⟨hidle, hready⟩ := h.inv
  unfold execMotorInit at he
  split at he <;> cases he
  all_goals obtain rfl := h.label_eq ‹_›
  · exact h.seqInv_goto .s2 rfl rfl rfl rfl ⟨hidle, nofun⟩
  · exact h.seqInv_goto .s3 rfl rfl rfl rfl ⟨hidle, nofun⟩
  · exact h.seqInv_goto .s4 rfl rfl rfl rfl ⟨hidle, fun _ => State.configureTimer_ready s _ _⟩
  · exact h.seqInv_goto .s5 (by simp) (by simp) (by simp) rfl
      ⟨by simpa using hidle, fun _ => by simpa using hready (by decide)⟩
  · exact seqInv_complete (by simpa using hidle)

theorem Standing.servoInit {l : MicroStep} {s t : State} (h : Standing .servoInit l s)
    (he : execServoInit s = .next t) : seqInv t := by
  obtain ⟨hidle, hready⟩ := h.inv
  unfold execServoInit at he
  split at he <;> cases he
  all_goals obtain rfl := h.label_eq ‹_›
  · exact h.seqInv_goto .s2 rfl rfl rfl rfl ⟨hidle, nofun⟩
  · exact h.seqInv_goto .s3 rfl rfl rfl rfl ⟨hidle, nofun⟩
  · exact h.seqInv_goto .s4 rfl rfl rfl rfl ⟨hidle, fun _ => State.configureTimer_ready s _ _⟩
  · exact h.seqInv_goto .s5 (by simp) (by simp) (by simp) rfl
      ⟨by simpa using hidle, fun _ => by simpa using hready (by decide)⟩
  · exact seqInv_complete (by simpa using hidle)

/-- A command without an S2 ends in its S1. -/
theorem exec_ends_of_oneStep {i : Instr} {s t : State} (hi : hasStep i .s2 = false) (h : exec i s = .next t) :
    t.seq.mode = .idle := by
  cases i
  case adcInit | adcSample | adcAvg | pwmInit | motorInit | servoInit => cases hi
  all_goals
    simp only [exec, execAdcToVolt, execAdcSetTimeout, execPwmSetDuty, execPwmStart, execPwmStop, execMotorSetSpeed,
      execMotorStop, execMotorSetDeadband, execServoSetAngle] at h
    repeat' split at h
    all_goals cases h
    all_goals simp

/-- A command that ends without having waited leaves the sequencer idle and the converter as idle as it was. -/
theorem Standing.ended {i : Instr} {l : MicroStep} {s t : State} (h : Standing i l s) (hw : waits i = false)
    (he : exec i s = .next t) (hm : t.seq.mode = .idle) : seqInv t := by
  have hx := exec_shape he
  have hadc : t.adc = s.adc := (hx.adc_polls_eq_or.resolve_right (by simp [hw])).1
  have hstep : t.seq.step = none := by
    cases hx.stepEnd with
    | goesOn hmode _ _ _ => rw [hm, h.mode] at hmode; cases hmode
    | completes _ hs _ _ => exact hs
    | fails _ _ hs _ _ _ => exact hs
  exact (seqInv_idle hm).mpr ⟨hstep, by rw [hadc]; exact h.inv.notConverting hw⟩

/-! ## Every micro-step -/

/-- Whatever the command, its micro-step keeps the ADC's part and the sequencer's part. -/
theorem Standing.unitKept {i : Instr} {l : MicroStep} {s t : State} (h : Standing i l s) (he : exec i s = .next t) :
    UnitKept t := by
  have hadc (hw : waits i = false) : AdcInv t.adc := by
    rw [((exec_shape he).adc_polls_eq_or.resolve_right (by simp [hw])).1]
    exact h.block.adc
  cases i with
  | adcInit => exact h.adcInit he
  | adcSample ch => exact h.adcSample he
  | adcAvg ch n => exact h.adcAvg he
  | pwmInit x => exact ⟨hadc rfl, h.pwmInit he⟩
  | motorInit => exact ⟨hadc rfl, h.motorInit he⟩
  | servoInit => exact ⟨hadc rfl, h.servoInit he⟩
  | _ => exact ⟨hadc rfl, h.ended rfl he (exec_ends_of_oneStep rfl he)⟩

/-- The dead-band stays in its range, for S1 of its command checks the operand (R215). -/
theorem exec_deadband_le {i : Instr} {s t : State} (h : exec i s = .next t) (hs : s.deadband.toNat ≤ 100) :
    t.deadband.toNat ≤ 100 := by
  rcases (exec_shape h).deadband_eq_or with heq | rfl
  · rwa [heq]
  · simp only [exec, execMotorSetDeadband] at h
    repeat' split at h
    all_goals cases h
    · exact hs
    · next hle =>
      simp only [State.complete_deadband, BitVec.toNat_setWidth, u32] at hle ⊢
      omega

theorem StepEnd.lastErr_le {s t : State} (h : StepEnd s t) (hs : s.status.lastErr.toNat ≤ 5) :
    t.status.lastErr.toNat ≤ 5 := by
  cases h with
  | goesOn _ hst _ _ => rwa [hst]
  | completes _ _ hst _ => rw [hst]; exact Nat.zero_le 5
  | fails e _ _ hst _ _ => rw [hst]; exact e.code_bounds.2

theorem Standing.exec_next {i : Instr} {l : MicroStep} {s t : State} (h : Standing i l s) (he : exec i s = .next t) :
    BlockInv t := by
  have hB := h.block
  have hx := exec_shape he
  have hparams := hx.params_eq
  have hunits := h.unitKept he
  refine ⟨hparams ▸ hB.params, fun j => ?_, hunits.1, hunits.2, hx.stepEnd.lastErr_le hB.lastErr,
    exec_deadband_le he hB.deadband⟩
  rw [hparams]
  exact (exec_timersWritten hB.params h.step h.inv he j).timerInv (paramsValid_bits hB.params).2
    (pscVal_lt j (paramsValid_clk hB.params j).2.2) (hB.timers j)

/-! ## Every step -/

theorem BlockInv.sequencerStep {s t : State} (h : BlockInv s) (hs : s.sequencerStep = .next t) : BlockInv t := by
  rcases State.sequencerStep_next hs with ⟨_, rfl⟩ | ⟨hm, i, hd, he⟩ | ⟨hm, ⟨e, hd⟩, _, rfl⟩
  · exact h
  · obtain ⟨l, hl⟩ := h.standing hm hd
    exact hl.exec_next he
  · obtain ⟨_, _, hidle⟩ := (seqInv_illegal hm hd).mp h.seq
    exact ⟨h.params, h.timers, h.adc, seqInv_raise _ hidle, ErrorCode.illegalCommand.code_bounds.2, h.deadband⟩

theorem BlockInv.applyMove {s t : State} (h : BlockInv s) {m : Move} (hm : s.applyMove m = .next t) : BlockInv t := by
  cases m with
  | host a => exact h.hostStep hm
  | sequencer => exact h.sequencerStep hm
  | converter e => cases hm; exact h.converterMove e
  | tick i => cases hm; exact h.tickMove i
  | reset => cases hm; exact .systemReset h.params

/-- Choosing the next move touches only the model's own fields (log entry 2). -/
theorem BlockInv.nextMove {s : State} (h : BlockInv s) : BlockInv s.nextMove.2 := by
  obtain ⟨ag, wc, hs⟩ := s.nextMove_snd
  rw [hs]
  exact h.of_eq rfl (fun _ => rfl) rfl h.seq rfl rfl

/-- Settles O50: each agent's move keeps the invariant, the sequencer's by the micro-steps of each command. -/
theorem stepKeepsTheInvariant : Obligations.StepKeepsTheInvariant :=
  fun _ _ h hs => h.nextMove.applyMove (step_next hs).2

end Sys2Proof.Machine
end

section
/-! The host's accesses as moves (20_memory.md): bus errors (R82), the registers a write ignores (R86, R88), and
repeated accesses (R85). -/

namespace Sys2Proof.Machine

/-! ## Bus errors (R82) -/

theorem wordAccess_eq_false {off n : Nat} (h : n ≠ 4 ∨ off % 4 ≠ 0) : wordAccess off n = false := by
  rw [Bool.eq_false_iff, ne_eq, wordAccess_iff]
  tauto

theorem State.memRead_busError (s : State) {off n : Nat} (h : off < 256) (hn : n ≠ 4 ∨ off % 4 ≠ 0) :
    s.memRead (Config.aspaBase + off) n = .busError (Config.aspaBase + off) n := by
  simp [State.memRead, windowOffset_base h, wordAccess_eq_false hn]

theorem State.memWrite_busError (s : State) {off n : Nat} (w : Word) (h : off < 256) (hn : n ≠ 4 ∨ off % 4 ≠ 0) :
    s.memWrite (Config.aspaBase + off) n w = .busError (Config.aspaBase + off) n := by
  simp [State.memWrite, windowOffset_base h, wordAccess_eq_false hn]

theorem State.applyMove_read_busError (s : State) {off n : Nat} (h : off < 256) (hn : n ≠ 4 ∨ off % 4 ≠ 0) :
    s.applyMove (.host (.read (Config.aspaBase + off) n)) = .fault (.busError (Config.aspaBase + off) n) := by
  simp [State.applyMove, State.hostStep, s.memRead_busError h hn]

theorem State.applyMove_write_busError (s : State) {off n : Nat} (w : Word) (h : off < 256)
    (hn : n ≠ 4 ∨ off % 4 ≠ 0) :
    s.applyMove (.host (.write (Config.aspaBase + off) n w)) = .fault (.busError (Config.aspaBase + off) n) := by
  simp [State.applyMove, State.hostStep, s.memWrite_busError w h hn]

/-- Settles O16: inside the window the width and the alignment alone decide. -/
theorem otherAccessesAreBusErrors : Obligations.OtherAccessesAreBusErrors :=
  fun s _ _ w h hn => ⟨s.applyMove_read_busError h hn, s.applyMove_write_busError w h hn⟩

/-! ## The three registers a write acts on (R86, R88) -/

/-- From word slot 3 on the map names no register a write acts on (R34, R86). -/
theorem slotReg_readOnly {k : Nat} (h : 3 ≤ k) : slotReg k ≠ .cmd ∧ slotReg k ≠ .arg ∧ slotReg k ≠ .status := by
  have hnamed : ∀ k < 40, 3 ≤ k → slotReg k ≠ .cmd ∧ slotReg k ≠ .arg ∧ slotReg k ≠ .status := by decide
  by_cases hk : k < 40
  · exact hnamed k hk h
  · rw [slotReg_of_ge (Nat.le_of_not_lt hk)]
    exact ⟨nofun, nofun, nofun⟩

theorem State.writeReg_readOnly (s : State) (w : Word) {r : Reg} (h : r ≠ .cmd ∧ r ≠ .arg ∧ r ≠ .status) :
    s.writeReg w r = s := by
  obtain ⟨hcmd, harg, hstatus⟩ := h
  cases r with
  | cmd => exact absurd rfl hcmd
  | arg => exact absurd rfl harg
  | status => exact absurd rfl hstatus
  | _ => rfl

/-- Settles O15: a word write acts on the register its offset names, and any other write inside the window is a bus
error. -/
theorem hostWritesActOnThreeRegisters : Obligations.HostWritesActOnThreeRegisters := by
  intro s w
  refine ⟨s.applyMove_writeWord (off := 0) w (by decide) rfl, s.applyMove_writeWord (off := 4) w (by decide) rfl,
    s.applyMove_writeStatus w, fun off h ha hoff => ?_, fun off h ha => s.applyMove_write_busError w h (.inr ha),
    fun off h ha => ⟨_, s.memWrite_word w h ha, s.applyMove_writeWord w h ha⟩⟩
  rw [s.applyMove_writeWord w h ha, s.writeReg_readOnly w (slotReg_readOnly (by omega))]

/-! ## Repeated accesses (R85) -/

theorem State.hostStep_read_next {s t : State} {a n : Nat} (h : s.hostStep (.read a n) = .next t) :
    t = { s with hostRdata := t.hostRdata } := by
  simp only [State.hostStep] at h
  split at h <;> cases h <;> rfl

theorem Status.hostWrite_idem (x : Status) (w : Word) : (x.hostWrite w).hostWrite w = x.hostWrite w := by
  simp [Status.hostWrite]

/-- Writing one value twice to a register other than `CMD` is writing it once (R85). -/
theorem State.writeReg_idem (s : State) (w : Word) {r : Reg} (h : r ≠ .cmd) :
    (s.writeReg w r).writeReg w r = s.writeReg w r := by
  cases r with
  | cmd => exact absurd rfl h
  | status => simp only [State.writeReg, State.acknowledge, Status.hostWrite_idem]
  | _ => rfl

theorem State.memWrite_word_idem (s : State) (w : Word) {off : Nat} (h : off < 256) (ha : off % 4 = 0) (h0 : off ≠ 0) :
    ∃ t, s.memWrite (Config.aspaBase + off) 4 w = .done t ∧ t.memWrite (Config.aspaBase + off) 4 w = .done t := by
  have hr : slotReg (off / 4) ≠ .cmd := fun hcmd => by
    have := slotReg_eq_cmd hcmd
    omega
  refine ⟨_, s.memWrite_word w h ha, ?_⟩
  rw [State.memWrite_word _ w h ha, s.writeReg_idem w hr]

/-- A `CMD` write is the acceptance or the drop of its word (R250, R251). -/
theorem State.memWrite_cmd (s : State) (w : Word) : s.memWrite Config.aspaBase 4 w = .done (s.cmdWrite w) :=
  s.memWrite_word (off := 0) w (by decide) rfl

/-- Settles O17: a read hands over data alone, every write but one to `CMD` is idempotent, and the second of two `CMD`
writes after reset is dropped and sets `OVR`. -/
theorem readsAreIdleAndWritesIdempotent : Obligations.ReadsAreIdleAndWritesIdempotent := by
  refine ⟨fun s t a n h => State.hostStep_read_next h, fun s w off h ha h0 => s.memWrite_word_idem w h ha h0, ?_⟩
  refine ⟨State.reset, State.reset.accept 0, (State.reset.accept 0).drop, 0, State.memWrite_cmd _ _,
    State.memWrite_cmd _ _, fun h => ?_⟩
  have hovr := congrArg (fun s => s.status.ovr) h
  exact absurd hovr (by decide)

end Sys2Proof.Machine
end

section
/-! Only a bus error stops a step that the invariant holds before (R82, R260, R291): the faults a micro-step can answer,
said once, and the parts of the invariant that exclude them. -/

namespace Sys2Proof.Machine

/-! ## The faults of a micro-step (log entry 10) -/

/-- Why a micro-step of command `i` can have no meaning in state `s`. -/
inductive ExecFault (i : Instr) (s : State) : Prop
  /-- `SEQ.STEP` is no micro-step of the command. -/
  | noLabel : (∀ l, s.seq.step = some l → hasStep i l = false) → ExecFault i s
  /-- `ADC_AVG` is to divide by a zero sample count. -/
  | noSamples (ch : Sel) : i = .adcAvg ch 0#8 → s.seq.step = some .s5 → ExecFault i s
  /-- `PWM_INIT` is to configure a timer from operands that S1 rejects. -/
  | badPeriod (x : Sel) : i = .pwmInit x → s.seq.step = some .s2 →
      (∀ tid p, timerOfSel x = some tid → periodOf s.params.timerBits (u32 s.seq.arg) = .ok p → False) → ExecFault i s

/-- A command whose labels are all among `ls` has no micro-step where `SEQ.STEP` is none of `ls`. -/
theorem ExecFault.of_labels {i : Instr} {s : State} (ls : List MicroStep) (hi : ∀ l, hasStep i l = true → l ∈ ls)
    (h : ∀ l ∈ ls, s.seq.step ≠ some l) : ExecFault i s :=
  .noLabel fun l hl => by
    by_contra hlabel
    exact h l (hi l (by simpa using hlabel)) hl

/-- Everything that can keep a micro-step from answering a next state. -/
theorem exec_fault {i : Instr} {s : State} {f : Fault} (h : exec i s = .fault f) : ExecFault i s := by
  cases i with
  | adcInit =>
    simp only [exec, execAdcInit] at h
    split at h <;> cases h
    next hnone => exact .noLabel fun l hl => by rw [hnone] at hl; cases hl
  | adcSample ch =>
    simp only [exec, execAdcSample] at h
    repeat' split at h
    all_goals cases h
    exact .of_labels [.s1, .s2, .s3, .s4] (by simp [hasStep]) (by simp_all)
  | adcAvg ch n =>
    simp only [exec, execAdcAvg] at h
    repeat' split at h
    all_goals cases h
    · next hn => exact .noSamples ch (by rw [hn]) ‹_›
    · exact .of_labels [.s1, .s2, .s3, .s4, .s5] (by simp [hasStep]) (by simp_all)
  | pwmInit x =>
    simp only [exec, execPwmInit] at h
    repeat' split at h
    all_goals cases h
    · next hbad => exact .badPeriod x rfl ‹_› hbad
    · exact .of_labels [.s1, .s2] (by simp [hasStep]) (by simp_all)
  | motorInit | servoInit =>
    simp only [exec, execMotorInit, execServoInit] at h
    split at h <;> cases h
    exact .of_labels [.s1, .s2, .s3, .s4, .s5] (by simp [hasStep]) (by simp_all)
  | _ =>
    simp only [exec, execAdcToVolt, execAdcSetTimeout, execPwmSetDuty, execPwmStart, execPwmStop, execMotorSetSpeed,
      execMotorStop, execMotorSetDeadband, execServoSetAngle] at h
    repeat' split at h
    all_goals cases h
    exact .of_labels [.s1] (by simp [hasStep]) (by simp_all)

/-! ## The invariant excludes them -/

theorem Standing.not_execFault {i : Instr} {l : MicroStep} {s : State} (h : Standing i l s) : ¬ ExecFault i s := by
  rintro (hlabel | ⟨ch, rfl, hs⟩ | ⟨x, rfl, hs, hbad⟩)
  · exact absurd h.label (by simp [hlabel l h.step])
  · obtain rfl := h.label_eq hs
    obtain ⟨hready, _⟩ := h.inv
    exact (hready nofun).2.1 rfl
  · obtain rfl := h.label_eq hs
    obtain ⟨_, hperiod⟩ := h.inv
    obtain ⟨tid, p, htid, hp⟩ := hperiod rfl
    exact hbad tid p htid hp

/-- A command that stands before one of its micro-steps takes it. -/
theorem Standing.exec_answers {i : Instr} {l : MicroStep} {s : State} (h : Standing i l s) :
    ∃ t, exec i s = .next t := by
  cases he : exec i s with
  | next t => exact ⟨t, rfl⟩
  | fault f => exact absurd (exec_fault he) h.not_execFault
  | refused r => exact absurd he (exec_not_refused i s r)

/-- The sequencer of a block that meets the invariant always has a next state. -/
theorem BlockInv.sequencerStep_answers {s : State} (h : BlockInv s) : ∃ t, s.sequencerStep = .next t := by
  cases hm : s.seq.mode with
  | idle => exact ⟨s, State.sequencerStep_idle hm⟩
  | run =>
    cases hd : decode s.seq.cmd with
    | ok i =>
      obtain ⟨l, hl⟩ := h.standing hm hd
      rw [State.sequencerStep_run hm hd]
      exact hl.exec_answers
    | error e =>
      obtain ⟨_, hs, _⟩ := (seqInv_illegal hm hd).mp h.seq
      exact ⟨s.raise .illegalCommand, by simp [State.sequencerStep, State.rejectIllegal, hm, hd, hs]⟩

/-- A move from a state that meets the invariant answers a next state, or is a host access that is a bus error. -/
theorem BlockInv.applyMove_answers {s : State} (h : BlockInv s) (m : Move) :
    (∃ t, s.applyMove m = .next t) ∨ ∃ a addr n, m = .host a ∧ s.applyMove m = .fault (.busError addr n) := by
  cases m with
  | host a =>
    cases ha : s.hostStep a with
    | next t => exact .inl ⟨t, ha⟩
    | fault f =>
      obtain ⟨addr, n, rfl⟩ := State.hostStep_fault ha
      exact .inr ⟨a, addr, n, rfl, ha⟩
    | refused r => exact absurd ha (s.hostStep_not_refused a r)
  | sequencer => exact .inl h.sequencerStep_answers
  | converter e => exact .inl ⟨_, rfl⟩
  | tick i => exact .inl ⟨_, rfl⟩
  | reset => exact .inl ⟨_, rfl⟩

/-- Settles O51: the parameter set is legal, a running command stands before a micro-step it has, and the other agents
always move. -/
theorem onlyBusErrorsStopTheBlock : Obligations.OnlyBusErrorsStopTheBlock := by
  intro s h
  rw [step_eq_applyMove h.params]
  exact h.nextMove.applyMove_answers s.nextMove.1

end Sys2Proof.Machine
end

section
/-! A command reads its latched operand and nothing else of the host's (R94, R104): its micro-steps commute with any
change of `ARG`, and with any change of `SEQ.ARG` if it has no operand. -/

namespace Sys2Proof.Machine

open Sys2Proof.Claims

@[simp] theorem mapNext_next (f : State → State) (s : State) : mapNext f (.next s) = .next (f s) := rfl

@[simp] theorem mapNext_fault (f : State → State) (x : Fault) : mapNext f (.fault x) = .fault x := rfl

/-! ## Changing the operand registers -/

/-- `ARG` changed by `f` and the latched `SEQ.ARG` changed by `g`. -/
def State.mapOperands (f g : Word → Word) (s : State) : State :=
  { s with arg := f s.arg, seq := { s.seq with arg := g s.seq.arg } }

section
variable (f g : Word → Word) (s : State)

/-! What the micro-steps read -/

@[simp] theorem State.mapOperands_step : (s.mapOperands f g).seq.step = s.seq.step := rfl
@[simp] theorem State.mapOperands_seqArg : (s.mapOperands f g).seq.arg = g s.seq.arg := rfl
@[simp] theorem State.mapOperands_acc : (s.mapOperands f g).seq.acc = s.seq.acc := rfl
@[simp] theorem State.mapOperands_polls : (s.mapOperands f g).seq.polls = s.seq.polls := rfl
@[simp] theorem State.mapOperands_val : (s.mapOperands f g).seq.val = s.seq.val := rfl
@[simp] theorem State.mapOperands_timeout : (s.mapOperands f g).timeout = s.timeout := rfl
@[simp] theorem State.mapOperands_deadband : (s.mapOperands f g).deadband = s.deadband := rfl
@[simp] theorem State.mapOperands_adc : (s.mapOperands f g).adc = s.adc := rfl
@[simp] theorem State.mapOperands_params : (s.mapOperands f g).params = s.params := rfl
@[simp] theorem State.timer_mapOperands (t : TimerId) : (s.mapOperands f g).timer t = s.timer t := by cases t <;> rfl

@[simp] theorem State.checkChannel_mapOperands (t c : Sel) :
    (s.mapOperands f g).checkChannel t c = s.checkChannel t c := by
  simp [State.checkChannel]

@[simp] theorem State.checkActuator_mapOperands (t : TimerId) (id : Sel) :
    (s.mapOperands f g).checkActuator t id = s.checkActuator t id := by
  simp [State.checkActuator]

/-! What they do commutes with the change -/

@[simp] theorem State.goto_mapOperands (l : MicroStep) :
    (s.mapOperands f g).goto l = (s.goto l).mapOperands f g := rfl

@[simp] theorem State.complete_mapOperands : (s.mapOperands f g).complete = s.complete.mapOperands f g := rfl

@[simp] theorem State.raise_mapOperands (e : ErrorCode) :
    (s.mapOperands f g).raise e = (s.raise e).mapOperands f g := rfl

@[simp] theorem State.setResult_mapOperands (v : Word) :
    (s.mapOperands f g).setResult v = (s.setResult v).mapOperands f g := rfl

@[simp] theorem State.emitPins_mapOperands (ps : List PinId) (md : PinMode) (af : Nat) :
    (s.mapOperands f g).emitPins ps md af = (s.emitPins ps md af).mapOperands f g := rfl

@[simp] theorem State.startConversion_mapOperands (ch : Sel) :
    (s.mapOperands f g).startConversion ch = (s.startConversion ch).mapOperands f g := rfl

@[simp] theorem State.takeReading_mapOperands :
    (s.mapOperands f g).takeReading = s.takeReading.mapOperands f g := rfl

@[simp] theorem State.accumulate_mapOperands (n : Byte) :
    (s.mapOperands f g).accumulate n = (s.accumulate n).mapOperands f g := rfl

@[simp] theorem State.poll_mapOperands (c : Bool) (o : State) :
    (s.mapOperands f g).poll c (o.mapOperands f g) = (s.poll c o).mapOperands f g := by
  simp only [State.poll, State.mapOperands_timeout, State.mapOperands_polls, apply_ite (State.mapOperands f g)]
  rfl

@[simp] theorem State.setTimer_mapOperands (t : TimerId) (x : Timer) :
    (s.mapOperands f g).setTimer t x = (s.setTimer t x).mapOperands f g := by
  cases t <;> rfl

@[simp] theorem State.writeCcr_mapOperands (t : TimerId) (c : ChanId) (v : Nat) :
    (s.mapOperands f g).writeCcr t c v = (s.writeCcr t c v).mapOperands f g := by
  simp [State.writeCcr]

@[simp] theorem State.setCce_mapOperands (t : TimerId) (c : ChanId) (b : Bool) :
    (s.mapOperands f g).setCce t c b = (s.setCce t c b).mapOperands f g := by
  simp [State.setCce]

@[simp] theorem State.configureTimer_mapOperands (t : TimerId) (p : Nat) :
    (s.mapOperands f g).configureTimer t p = (s.configureTimer t p).mapOperands f g := by
  simp [State.configureTimer]

@[simp] theorem State.writePair_mapOperands (a : ActuatorId) (fwd rev : Nat) :
    (s.mapOperands f g).writePair a fwd rev = (s.writePair a fwd rev).mapOperands f g := by
  simp [State.writePair]

@[simp] theorem State.writeServo_mapOperands (a : ActuatorId) (angle : Word) :
    (s.mapOperands f g).writeServo a angle = (s.writeServo a angle).mapOperands f g := by
  simp [State.writeServo]

/-- Every micro-step commutes with the change, if a command with an operand is left its latched operand. -/
theorem exec_mapOperands {i : Instr} (hg : readsOperand i = true → g = id) :
    exec i (s.mapOperands f g) = mapNext (State.mapOperands f g) (exec i s) := by
  cases i with
  | adcInit =>
    simp only [exec, execAdcInit, State.mapOperands_step]
    split
    case h_7 | h_9 => simp
    all_goals rfl
  | adcSample ch =>
    simp only [exec, execAdcSample, State.mapOperands_step]
    split <;> simp [apply_ite (mapNext _)]
  | adcAvg ch n =>
    simp only [exec, execAdcAvg, State.mapOperands_step]
    split
    case h_2 => rfl
    all_goals simp [apply_ite (mapNext _)]
  | motorInit | servoInit =>
    simp only [exec, execMotorInit, execServoInit, State.mapOperands_step]
    split <;> simp
  | pwmStart | pwmStop | motorStop =>
    simp only [exec, execPwmStart, execPwmStop, execMotorStop, State.mapOperands_step, State.checkChannel_mapOperands,
      State.checkActuator_mapOperands]
    repeat' split
    all_goals simp
  | adcToVolt | motorSetDeadband =>
    obtain rfl := hg rfl
    simp only [exec, execAdcToVolt, execMotorSetDeadband, State.mapOperands_step, State.mapOperands_seqArg, id]
    split
    · rw [apply_ite (mapNext _)]
      rfl
    · rfl
  | adcSetTimeout =>
    obtain rfl := hg rfl
    simp only [exec, execAdcSetTimeout, State.mapOperands_step]
    split <;> rfl
  | pwmInit | pwmSetDuty | motorSetSpeed | servoSetAngle =>
    obtain rfl := hg rfl
    simp only [exec, execPwmInit, execPwmSetDuty, execMotorSetSpeed, execServoSetAngle, State.mapOperands_step,
      State.mapOperands_seqArg, State.mapOperands_params, State.checkChannel_mapOperands,
      State.checkActuator_mapOperands, id]
    repeat' split
    all_goals simp

end

/-- Settles O57: both changes are special cases of `State.mapOperands`, which every micro-step commutes with. -/
theorem onlyTheLatchedOperandIsRead : Obligations.OnlyTheLatchedOperandIsRead :=
  ⟨fun _ s v => exec_mapOperands (fun _ => v) id s fun _ => rfl,
    fun _ s v hi => exec_mapOperands id (fun _ => v) s fun h => absurd (h.symm.trans hi) nofun⟩

end Sys2Proof.Machine
end

section
/-! The command words (R100 to R103, R106): a row of the table matches a word exactly when the word is the encoding of
the command that the row reads in it, and no other row matches it. -/

namespace Sys2Proof

/-! ## A word is its five fields (R100) -/

theorem Word.eq_append_fields (w : Word) : w = (w.rsv ++ (w.f3 ++ (w.f2 ++ (w.f1 ++ w.opc)))) := by
  unfold Word.opc Word.f1 Word.f2 Word.f3 Word.rsv
  iterate 4 rw [BitVec.extractLsb'_append_extractLsb'_eq_extractLsb' (by rfl)]
  exact BitVec.extractLsb'_eq_self.symm

theorem Word.eq_iff_fields {w v : Word} :
    w = v ↔ w.opc = v.opc ∧ w.rsv = v.rsv ∧ w.f1 = v.f1 ∧ w.f2 = v.f2 ∧ w.f3 = v.f3 :=
  ⟨fun h => by simp [h], fun ⟨ho, hr, h1, h2, h3⟩ => by
    rw [w.eq_append_fields, v.eq_append_fields, ho, hr, h1, h2, h3]⟩

theorem Word.and_opc (w m : Word) : Word.opc (w &&& m) = w.opc &&& m.opc := BitVec.extractLsb'_and
theorem Word.and_f1 (w m : Word) : Word.f1 (w &&& m) = w.f1 &&& m.f1 := BitVec.extractLsb'_and
theorem Word.and_f2 (w m : Word) : Word.f2 (w &&& m) = w.f2 &&& m.f2 := BitVec.extractLsb'_and
theorem Word.and_f3 (w m : Word) : Word.f3 (w &&& m) = w.f3 &&& m.f3 := BitVec.extractLsb'_and
theorem Word.and_rsv (w m : Word) : Word.rsv (w &&& m) = w.rsv &&& m.rsv := BitVec.extractLsb'_and

theorem Word.and_mask_eq_iff {w m v : Word} :
    w &&& m = v ↔
      w.opc &&& m.opc = v.opc ∧ w.rsv &&& m.rsv = v.rsv ∧ w.f1 &&& m.f1 = v.f1 ∧ w.f2 &&& m.f2 = v.f2
        ∧ w.f3 &&& m.f3 = v.f3 := by
  rw [Word.eq_iff_fields, Word.and_opc, Word.and_rsv, Word.and_f1, Word.and_f2, Word.and_f3]

theorem packCommand_eq_iff {o : Byte} {a b : Sel} {c : Byte} {w : Word} :
    packCommand o a b c = w ↔ w.opc = o ∧ w.rsv = 0#8 ∧ w.f1 = a ∧ w.f2 = b ∧ w.f3 = c := by
  rw [eq_comm, Word.eq_iff_fields, packCommand_opc, packCommand_rsv, packCommand_f1, packCommand_f2, packCommand_f3]

theorem and_ones_byte (x : Byte) : x &&& 0xFF#8 = x := BitVec.and_allOnes

theorem and_ones_sel (x : Sel) : x &&& 0xF#4 = x := BitVec.and_allOnes

theorem Word.opc_ofNat (n : Nat) : Word.opc (BitVec.ofNat 32 n) = BitVec.ofNat 8 n := by
  apply BitVec.eq_of_toNat_eq
  simp only [Word.opc, BitVec.extractLsb'_toNat, BitVec.toNat_ofNat, Nat.shiftRight_zero]
  omega

/-! ## At most one row matches a word (R106) -/

theorem forall_commandRows {p : Row → Prop} (hadc : ∀ r ∈ adcRows, p r) (hpwm : ∀ r ∈ pwmRows, p r)
    (hmotor : ∀ r ∈ motorRows, p r) (hservo : ∀ r ∈ servoRows, p r) : ∀ r ∈ commandRows, p r := by
  simp only [commandRows, List.forall_mem_append]
  exact ⟨⟨⟨hadc, hpwm⟩, hmotor⟩, hservo⟩

theorem mask_opc_of_mem : ∀ r ∈ commandRows, r.mask.opc = 0xFF#8 := by decide

theorem nodup_assignedOpcodes : assignedOpcodes.Nodup := by decide

/-- The words of a row have the row's opcode. -/
theorem opc_eq_of_match {r : Row} (hr : r ∈ commandRows) {w : Word} (h : w &&& r.mask = r.fixed) :
    w.opc = r.fixed.opc := by
  rw [← h, Word.and_opc, mask_opc_of_mem r hr, and_ones_byte]

/-- A row is known by its opcode. -/
theorem row_eq_of_opc_eq {r r' : Row} (hr : r ∈ commandRows) (hr' : r' ∈ commandRows)
    (h : r.fixed.opc = r'.fixed.opc) : r = r' :=
  List.inj_on_of_nodup_map nodup_assignedOpcodes hr hr' h

theorem row_eq_of_match {r r' : Row} (hr : r ∈ commandRows) (hr' : r' ∈ commandRows) {w : Word}
    (h : w &&& r.mask = r.fixed) (h' : w &&& r'.mask = r'.fixed) : r = r' :=
  row_eq_of_opc_eq hr hr' ((opc_eq_of_match hr h).symm.trans (opc_eq_of_match hr' h'))

/-! ## The decoder is the table (R106) -/

theorem decode_of_match {r : Row} (hr : r ∈ commandRows) {w : Word} (h : w &&& r.mask = r.fixed) :
    decode w = .ok (r.build w) := by
  unfold decode
  split
  · next r' hf =>
    have h' : w &&& r'.mask = r'.fixed := by simpa [Row.covers] using List.find?_some hf
    rw [row_eq_of_match hr (List.mem_of_find?_eq_some hf) h h']
  · next hf => exact absurd h (by simpa [Row.covers] using List.find?_eq_none.mp hf r hr)

theorem exists_match_of_decode {w : Word} {i : Instr} (h : decode w = .ok i) :
    ∃ r ∈ commandRows, w &&& r.mask = r.fixed ∧ r.build w = i := by
  unfold decode at h
  split at h
  · next r hf =>
    exact ⟨r, List.mem_of_find?_eq_some hf, by simpa [Row.covers] using List.find?_some hf, Except.ok.inj h⟩
  · cases h

theorem decode_illegal_iff {w : Word} :
    (∃ e, decode w = .error e) ↔ ∀ r ∈ commandRows, w &&& r.mask ≠ r.fixed := by
  constructor
  · rintro ⟨e, he⟩ r hr h
    rw [decode_of_match hr h] at he
    cases he
  · intro hno
    cases hd : decode w with
    | error e => exact ⟨e, rfl⟩
    | ok i =>
      obtain ⟨r, hr, h, -⟩ := exists_match_of_decode hd
      exact absurd h (hno r hr)

/-- Settles O6: every mask covers the opcode and the opcodes of the rows differ. -/
theorem eachWordMatchesAtMostOneRow : Obligations.EachWordMatchesAtMostOneRow := by
  refine ⟨?_, fun w r hr h => decode_of_match hr h, fun w => decode_illegal_iff.mpr⟩
  refine (List.pairwise_map.mp nodup_assignedOpcodes).imp_of_mem fun ha hb hne w ⟨h, h'⟩ => hne ?_
  exact (opc_eq_of_match ha h).symm.trans (opc_eq_of_match hb h')

/-! ## A row's words are the encoder's words (R100, R102) -/

/-- A row matches a word exactly when the command it reads in the word has that word. -/
theorem match_iff_encode_build {w : Word} : ∀ r ∈ commandRows, (w &&& r.mask = r.fixed ↔ encode (r.build w) = w) := by
  simp only [Word.and_mask_eq_iff]
  apply forall_commandRows <;>
    simp [adcRows, pwmRows, motorRows, servoRows, encode, packCommand_eq_iff, Word.opc, Word.f1, Word.f2, Word.f3,
      Word.rsv, and_ones_byte, and_ones_sel]

/-- The row of a command reads the command back from its word. -/
theorem exists_row_build_encode (i : Instr) : ∃ r ∈ commandRows, r.build (encode i) = i := by
  cases i <;> simp [commandRows, adcRows, pwmRows, motorRows, servoRows, encode]

/-- Settles O4: the row that matches reads a command whose word is the one matched. -/
theorem decodedWordsEncodeBack : Obligations.DecodedWordsEncodeBack := by
  intro w i h
  obtain ⟨r, hr, hmatch, rfl⟩ := exists_match_of_decode h
  exact (match_iff_encode_build r hr).mp hmatch

/-- Settles O3: the row that reads the command back from its word matches the word. -/
theorem encodedCommandsDecodeToThemselves : Obligations.EncodedCommandsDecodeToThemselves := by
  intro i
  obtain ⟨r, hr, hbuild⟩ := exists_row_build_encode i
  have hmatch := (match_iff_encode_build (w := encode i) r hr).mpr (congrArg encode hbuild)
  rw [decode_of_match hr hmatch, hbuild]

/-! ## Illegal words (R103, R255) -/

/-- The opcodes that no row has. -/
theorem opc_unassigned_iff (o : Byte) :
    (o.toNat = 0 ∨ (0x06 ≤ o.toNat ∧ o.toNat ≤ 0x0F) ∨ (0x14 ≤ o.toNat ∧ o.toNat ≤ 0x1F)
        ∨ (0x24 ≤ o.toNat ∧ o.toNat ≤ 0x2F) ∨ 0x32 ≤ o.toNat)
      ↔ o ∉ assignedOpcodes := by
  simp [assignedOpcodes_eq, ← BitVec.toNat_inj]
  omega

/-- A word whose opcode is a row's is illegal exactly when it is not the word of the command the row reads in it. -/
theorem decode_illegal_iff_of_opc {r : Row} (hr : r ∈ commandRows) {w : Word} (ho : w.opc = r.fixed.opc) :
    (∃ e, decode w = .error e) ↔ encode (r.build w) ≠ w := by
  rw [decode_illegal_iff, Ne, ← match_iff_encode_build r hr]
  refine ⟨fun hno => hno r hr, fun hne r' hr' h => hne ?_⟩
  rwa [row_eq_of_opc_eq hr hr' (ho.symm.trans (opc_eq_of_match hr' h))]

theorem decode_illegal_of_opc_unassigned {w : Word} (ho : w.opc ∉ assignedOpcodes) : ∃ e, decode w = .error e :=
  decode_illegal_iff.mpr fun _ hr h => ho (opc_eq_of_match hr h ▸ List.mem_map_of_mem hr)

/-- The third condition of R103: a field that the command of the opcode does not use is not 0. -/
def Word.UnusedFieldNonzero (w : Word) : Prop :=
  (w.opc ∈ [0x01#8, 0x04#8, 0x05#8, 0x20#8, 0x23#8, 0x30#8] ∧ (w.f1 ≠ 0#4 ∨ w.f2 ≠ 0#4 ∨ w.f3 ≠ 0#8))
    ∨ (w.opc ∈ [0x02#8, 0x10#8, 0x21#8, 0x22#8, 0x31#8] ∧ (w.f2 ≠ 0#4 ∨ w.f3 ≠ 0#8))
    ∨ (w.opc = 0x03#8 ∧ w.f2 ≠ 0#4)
    ∨ (w.opc ∈ [0x11#8, 0x12#8, 0x13#8] ∧ w.f3 ≠ 0#8)

/-- Under a row's opcode, only `RSV` and the unused fields can make a word another one than the encoder's. -/
theorem encode_build_ne_iff {w : Word} : ∀ r ∈ commandRows, w.opc = r.fixed.opc →
    (encode (r.build w) ≠ w ↔ w.rsv ≠ 0#8 ∨ w.UnusedFieldNonzero) := by
  apply forall_commandRows <;>
    simp +contextual [adcRows, pwmRows, motorRows, servoRows, Word.opc_ofNat, encode, packCommand_eq_iff,
      Word.UnusedFieldNonzero, -not_and, not_and_or]

theorem decode_illegal_iff_fields (w : Word) : (∃ e, decode w = .error e) ↔
    w.opc ∉ assignedOpcodes ∨ w.rsv ≠ 0#8 ∨ w.UnusedFieldNonzero := by
  by_cases ho : w.opc ∈ assignedOpcodes
  · obtain ⟨r, hr, hopc⟩ := List.mem_map.mp ho
    rw [decode_illegal_iff_of_opc hr hopc.symm, encode_build_ne_iff r hr hopc.symm, or_iff_right (not_not_intro ho)]
  · exact iff_of_true (decode_illegal_of_opc_unassigned ho) (.inl ho)

open Machine Claims

/-- Settles O5: an assigned opcode leaves the fields of its own row to check, and S1 rejects by `raise` with code 4. -/
theorem illegalWordsAreTheSpecs : Obligations.IllegalWordsAreTheSpecs := by
  refine ⟨fun w => ?_, fun s hm hs => ⟨fun e hd => ?_, fun i hd => State.sequencerStep_run hm hd⟩⟩
  · rw [opc_unassigned_iff]
    exact decode_illegal_iff_fields w
  · simp only [State.applyMove, State.sequencerStep, State.rejectIllegal, hm, hd, hs]
    rfl

end Sys2Proof
end

section
/-! The domains of the selectors (R105): a selector is outside its domain exactly when the part it names does not exist
or the count is 0, and S1 checks that first. -/

namespace Sys2Proof.Machine

open Sys2Proof.Claims

/-! ## The domains as ranges -/

theorem isAdcChannel_eq_false_iff : ∀ ch : Sel, Sel.isAdcChannel ch = false ↔ 10 ≤ ch.toNat := by decide

theorem isTimer_eq_false_iff : ∀ t : Sel, Sel.isTimer t = false ↔ 3 ≤ t.toNat := by decide

theorem isPwmChannel_eq_false_iff : ∀ c : Sel, Sel.isPwmChannel c = false ↔ c.toNat = 0 ∨ 5 ≤ c.toNat := by decide

theorem isActuator_eq_false_iff : ∀ id : Sel, Sel.isActuator id = false ↔ id.toNat = 0 ∨ 3 ≤ id.toNat := by decide

theorem isTimes_eq_false_iff (n : Byte) : Byte.isTimes n = false ↔ n.toNat = 0 := by
  simp [Byte.isTimes, BitVec.toNat_eq]

theorem wellFormed_eq_false_iff (i : Instr) : i.wellFormed = false ↔ SelectorInvalid i := by
  cases i <;>
    simp [Instr.wellFormed, SelectorInvalid, isAdcChannel_eq_false_iff, isTimer_eq_false_iff,
      isPwmChannel_eq_false_iff, isActuator_eq_false_iff, isTimes_eq_false_iff, -Bool.and_eq_false_imp,
      Bool.and_eq_false_iff]

/-! ## A selector outside its domain names no part -/

theorem timerOfSel_eq_none : ∀ {t : Sel}, 3 ≤ t.toNat → timerOfSel t = none := by decide

theorem chanOfSel_eq_none : ∀ {c : Sel}, c.toNat = 0 ∨ 5 ≤ c.toNat → chanOfSel c = none := by decide

theorem actuatorOfSel_eq_none : ∀ {id : Sel}, id.toNat = 0 ∨ 3 ≤ id.toNat → actuatorOfSel id = none := by decide

theorem State.checkChannel_invalid (s : State) {t c : Sel} (h : 3 ≤ t.toNat ∨ c.toNat = 0 ∨ 5 ≤ c.toNat) :
    s.checkChannel t c = .error .invalidArgument := by
  rcases h with ht | hc
  · simp [State.checkChannel, timerOfSel_eq_none ht]
  · cases ht : timerOfSel t <;> simp [State.checkChannel, ht, chanOfSel_eq_none hc]

theorem State.checkActuator_invalid (s : State) (t : TimerId) {id : Sel} (h : id.toNat = 0 ∨ 3 ≤ id.toNat) :
    s.checkActuator t id = .error .invalidArgument := by
  simp [State.checkActuator, actuatorOfSel_eq_none h]

/-! ## S1 under an invalid selector -/

theorem exec_of_selectorInvalid {i : Instr} {s : State} (h : SelectorInvalid i) (hs : s.seq.step = some .s1) :
    exec i s = .next (s.raise .invalidArgument) := by
  cases i with
  | adcInit | adcToVolt | adcSetTimeout | motorInit | motorSetDeadband | servoInit => exact h.elim
  | adcSample ch =>
    have hch : 9#4 < ch := BitVec.lt_def.mpr h
    simp [exec, execAdcSample, hs, hch]
  | adcAvg ch n =>
    rcases h with h | h
    · have hch : 9#4 < ch := BitVec.lt_def.mpr h
      simp [exec, execAdcAvg, hs, hch]
    · have hn : n = 0#8 := BitVec.eq_of_toNat_eq h
      simp [exec, execAdcAvg, hs, hn]
  | pwmInit t => simp [exec, execPwmInit, hs, timerOfSel_eq_none h]
  | pwmSetDuty t c | pwmStart t c | pwmStop t c =>
    simp [exec, execPwmSetDuty, execPwmStart, execPwmStop, hs, s.checkChannel_invalid h]
  | motorSetSpeed id | motorStop id | servoSetAngle id =>
    simp [exec, execMotorSetSpeed, execMotorStop, execServoSetAngle, hs, s.checkActuator_invalid _ h]

/-- Settles O52: `raise INVALID_ARGUMENT` is the completion state with code 1. -/
theorem selectorsOutsideTheirDomainAreInvalid : Obligations.SelectorsOutsideTheirDomainAreInvalid :=
  ⟨wellFormed_eq_false_iff, fun _ _ h hs => exec_of_selectorInvalid h hs⟩

end Sys2Proof.Machine
end

section
/-! The worked encodings of R109: the words of `encode` and the operands that the statements of R107 write. -/

namespace Sys2Proof.Machine

/-! ## The operands that are decimals -/

theorem pattern_of_33_3 : Decimal.pattern ⟨false, 333, 1⟩ = 0x42053333#32 := by decide +kernel

theorem pattern_of_90_0 : Decimal.pattern ⟨false, 900, 1⟩ = 0x42B40000#32 := by decide +kernel

/-- Settles O7: the words and the other operands by evaluation, the decimal operands by their patterns. -/
theorem workedEncodings : Obligations.WorkedEncodings := by
  unfold Obligations.WorkedEncodings
  simp only [AsmCmd.expand, pattern_of_33_3, pattern_of_90_0]
  decide

end Sys2Proof.Machine
end

section
/-! The micro-steps of the ADC Sampler's commands (R132 to R145), each as the next state it gives. -/

namespace Sys2Proof.Machine

open Sys2Proof.Claims

/-! ## The shared endings and the poll, in raw fields -/

/-- A count reaches a nonzero budget in the word exactly when it does as a number: it cannot have wrapped. -/
theorem polls_succ_eq_iff {polls budget : Word} (h0 : budget ≠ 0#32) :
    polls + 1 = budget ↔ polls.toNat + 1 = budget.toNat := by
  constructor <;> intro h <;> bv_omega

/-- A poll goes on when it finds its condition, and else fails as R137 says. -/
theorem State.poll_eq (s : State) (cond : Bool) (onward : State) :
    s.poll cond onward = if cond then onward else pollFailed s := by
  rcases s.poll_cases cond onward with ⟨rfl, h⟩ | ⟨rfl, h0, h⟩ | ⟨rfl, h0, hend, h⟩ | ⟨rfl, h0, hmore, h⟩ <;> rw [h]
  · rfl
  · simp [pollFailed, h0]
  · rw [polls_succ_eq_iff h0] at hend
    simp only [pollFailed, if_neg h0, if_pos hend]
    rfl
  · rw [ne_eq, polls_succ_eq_iff h0] at hmore
    simp only [pollFailed, if_neg h0, if_neg hmore]
    rfl

/-- The check of the channel selector in S1 (R105). -/
theorem sel_above_nine_iff (ch : Sel) : 9#4 < ch ↔ 9 < ch.toNat := BitVec.lt_def

/-! ## `ADC_INIT` (R132) -/

/-- Settles O19: each micro-step by its arm, the two waits by the poll. -/
theorem adcInitMicroSteps : Obligations.AdcInitMicroSteps := by
  intro s
  refine ⟨?_, ?_, ?_, ?_, ?_, ?_, ?_, ?_, ?_, ?_⟩ <;> intro hs <;> simp only [exec, execAdcInit, hs]
  case refine_7 => cases hr : s.adc.rstcal <;> rw [State.poll_eq] <;> rfl
  case refine_9 => cases hc : s.adc.cal <;> rw [State.poll_eq] <;> rfl
  all_goals rfl

/-! ## `ADC_SAMPLE` (R138) -/

/-- Settles O20: the checks of S1 in their order, the start, the poll and the completion. -/
theorem adcSampleMicroSteps : Obligations.AdcSampleMicroSteps := by
  intro s ch
  refine ⟨fun hs => ?_, fun hs => ?_, fun hs => ?_, fun hs => ?_⟩ <;> simp only [exec, execAdcSample, hs]
  · simp only [sel_above_nine_iff, Bool.not_eq_true']
    split
    · rfl
    · split <;> rfl
  · rfl
  · rw [State.poll_eq]
    rfl
  · rw [BitVec.ofNat_toNat]
    rfl

/-! ## `ADC_AVG` (R139) -/

/-- S2 of `ADC_AVG`: the accumulator and the count are cleared and the first sample is next. -/
def State.startSamples (s : State) : State := State.goto { s with seq := { s.seq with acc := 0, k := 0 } } .s3

section
variable {s : State} {ch : Sel} {times : Byte}

theorem exec_adcAvg_s1 (hs : s.seq.step = some .s1) :
    exec (.adcAvg ch times) s =
      .next (if 9 < ch.toNat then s.raise .invalidArgument
        else if times = 0#8 then s.raise .invalidArgument
        else if s.adc.ready = false then s.raise .notReady
        else s.goto .s2) := by
  simp only [exec, execAdcAvg, hs, sel_above_nine_iff, Bool.not_eq_true']
  repeat' split
  all_goals rfl

theorem exec_adcAvg_s2 (hs : s.seq.step = some .s2) :
    exec (.adcAvg ch times) s = .next s.startSamples := by
  simp only [exec, execAdcAvg, hs]
  rfl

theorem exec_adcAvg_s3 (hs : s.seq.step = some .s3) :
    exec (.adcAvg ch times) s = .next ((s.startConversion ch).goto .s4) := by
  simp only [exec, execAdcAvg, hs]

theorem exec_adcAvg_s4 (hs : s.seq.step = some .s4) :
    exec (.adcAvg ch times) s = .next (s.poll s.adc.eoc (s.accumulate times)) := by
  simp only [exec, execAdcAvg, hs]

theorem exec_adcAvg_s5 (hs : s.seq.step = some .s5) (ht : times ≠ 0#8) :
    exec (.adcAvg ch times) s = .next (s.setResult (truncatedMean s.seq.acc times)).complete := by
  simp only [exec, execAdcAvg, hs, if_neg ht]

end

/-- Settles O21: the equations of the five micro-steps in raw fields. -/
theorem adcAvgMicroSteps : Obligations.AdcAvgMicroSteps :=
  fun s _ times =>
    ⟨exec_adcAvg_s1, exec_adcAvg_s2, exec_adcAvg_s3,
      fun hs => (exec_adcAvg_s4 hs).trans (congrArg _ (s.poll_eq s.adc.eoc (s.accumulate times))), exec_adcAvg_s5⟩

/-! ## `ADC_TO_VOLT` and `ADC_SET_TIMEOUT` (R142, R145) -/

/-- Settles O22: the check against 4095 decides, and the readiness of the ADC is not read. -/
theorem adcToVoltResult : Obligations.AdcToVoltResult := by
  intro s hs
  refine ⟨fun hr => ?_, fun hr => ?_⟩ <;> simp only [exec, execAdcToVolt, hs]
  · exact if_pos hr
  · exact if_neg (Nat.not_lt.mpr hr)

/-- Settles O25: one micro-step with no check. -/
theorem adcSetTimeoutResult : Obligations.AdcSetTimeoutResult := by
  intro s hs
  simp only [exec, execAdcSetTimeout, hs]
  rfl

end Sys2Proof.Machine
end

section
/-! The voltage is monotone (R143): of two readings the greater exact value has no smaller nearest pattern. -/

namespace Sys2Proof.Machine

/-- Points of a set nearest to `p` and to `q` lie in the order of `p` and `q`: a crossing would put the midpoint of the
two at or above `q` and at or below `p`. -/
theorem nearest_mono {p q x y : Rat} (hpq : p < q) (hx : |x - p| ≤ |y - p|) (hy : |y - q| ≤ |x - q|) : x ≤ y := by
  by_contra hlt
  have hgap : 0 < x - y := by linarith
  rw [← sq_le_sq] at hx hy
  have hp : 0 ≤ (x - y) * (2 * p - (x + y)) := by linarith
  have hq : 0 ≤ (x - y) * ((x + y) - 2 * q) := by linarith
  have hmid_le := nonneg_of_mul_nonneg_right hp hgap
  have hle_mid := nonneg_of_mul_nonneg_right hq hgap
  linarith

/-- `rne32` is monotone on the nonnegative rationals below `2 ^ 127` (R14). -/
theorem rne32_mono {p q : Rat} (h0 : 0 ≤ p) (hpq : p ≤ q) (hmax : q < 2 ^ 127) :
    finiteValue (rne32 p) ≤ finiteValue (rne32 q) := by
  rcases hpq.eq_or_lt with rfl | hlt
  · exact le_rfl
  · exact nearest_mono hlt (rne32_nearest h0 (hlt.trans hmax) _) (rne32_nearest (h0.trans hpq) hmax _)

theorem voltage_zero : voltage 0 = 0#32 := by decide +kernel

theorem voltage_max : voltage 4095 = rne32 (33 / 10) := by
  have hfull : ((4095 : Nat) : Rat) * 33 / 40950 = 33 / 10 := by norm_num
  rw [voltage, hfull]

theorem rne32_full_scale : rne32 (33 / 10) = 0x40533333#32 := by decide +kernel

/-- Settles O24: the exact voltage rises with the reading, and the two ends by evaluation. -/
theorem voltageIsMonotone : Obligations.VoltageIsMonotone := by
  refine ⟨fun r1 r2 hle hmax => ?_, voltage_zero, voltage_max, voltage_max.trans rne32_full_scale⟩
  have hle' : (r1 : Rat) ≤ r2 := by exact_mod_cast hle
  have hmax' : (r2 : Rat) ≤ 4095 := by exact_mod_cast hmax
  exact rne32_mono (by positivity) (by linarith) (by linarith)

end Sys2Proof.Machine
end

section
/-! The waits of R137: what one move does to a command that waits for a condition which does not hold, and from it how
long such a wait lasts with a budget and without one. -/

namespace Sys2Proof.Machine

/-- Under a running command a host access or a tick leaves the sequencer, the ADC, the budget and the result. -/
theorem State.applyMove_keeps_command {s t : State} {m : Move} (hm : s.seq.mode = .run) (h : s.applyMove m = .next t)
    (hs : m ≠ .sequencer) (hc : ∀ e, m ≠ .converter e) (hr : m ≠ .reset) :
    t.seq = s.seq ∧ t.adc = s.adc ∧ t.timeout = s.timeout ∧ t.result = s.result := by
  cases m with
  | host a =>
    rcases State.hostStep_next h with rfl | ⟨v, rfl⟩ | ⟨w, r, rfl⟩
    · exact ⟨rfl, rfl, rfl, rfl⟩
    · exact ⟨rfl, rfl, rfl, rfl⟩
    · rcases s.writeReg_cases w r with ⟨hi, _⟩ | ⟨_, hw⟩ | hw | hw | hw
      · exact absurd (hm.symm.trans hi) nofun
      all_goals rw [hw]; exact ⟨rfl, rfl, rfl, rfl⟩
  | sequencer => exact absurd rfl hs
  | converter e => exact absurd rfl (hc e)
  | tick i => cases h; simp
  | reset => exact absurd rfl hr

end Sys2Proof.Machine

namespace Sys2Proof.Claims

open Sys2Proof.Machine

/-! ## A failed poll -/

theorem pollFailed_unbounded {s : State} (h0 : s.timeout = 0#32) : pollFailed s = s := if_pos h0

/-- The state `s` with its poll counter at `p`. -/
def polled (s : State) (p : Word) : State := { s with seq := { s.seq with polls := p } }

/-- A failed poll below the budget is counted. -/
theorem pollFailed_polled {s : State} {p : Word} (h : p.toNat + 1 < s.timeout.toNat) :
    pollFailed (polled s p) = polled s (p + 1#32) := by
  have h0 : s.timeout ≠ 0#32 := by bv_omega
  exact (if_neg h0).trans (if_neg h.ne)

/-- The failed poll that reaches the budget ends the command. -/
theorem pollFailed_polled_last {s : State} {p : Word} (h : p + 1#32 = s.timeout) (h0 : s.timeout ≠ 0#32) :
    pollFailed (polled s p) = failed { polled s (p + 1#32) with adc := { s.adc with pend := false } } 3#4 :=
  (if_neg h0).trans (if_pos ((polls_succ_eq_iff h0).mp h))

/-! ## A command that waits -/

section
variable {s t : State} {i : Instr} {l : MicroStep}

theorem Waiting.of_eq (h : Waiting s i l) (hseq : t.seq = s.seq) (hadc : t.adc = s.adc) : Waiting t i l := by
  unfold Waiting
  rw [hseq, hadc]
  exact h

/-- In each of the four waits the sequencer's move is a failed poll. -/
theorem Waiting.sequencerStep (h : Waiting s i l) : s.sequencerStep = .next (pollFailed s) := by
  obtain ⟨hm, hd, hs, hwait⟩ := h
  rw [State.sequencerStep_run hm hd]
  rcases hwait with ⟨rfl, rfl, hcal⟩ | ⟨rfl, rfl, hcal⟩ | ⟨ch, rfl, rfl, heoc⟩ | ⟨ch, times, rfl, rfl, heoc⟩
  · obtain ⟨_, _, _, _, _, _, h7, _⟩ := adcInitMicroSteps s
    rw [h7 hs, if_pos hcal]
  · obtain ⟨_, _, _, _, _, _, _, _, h9, _⟩ := adcInitMicroSteps s
    rw [h9 hs, if_pos hcal]
  · obtain ⟨_, _, h3, _⟩ := adcSampleMicroSteps s ch
    simp [h3 hs, heoc]
  · simp [exec_adcAvg_s4 hs, State.poll_eq, heoc]

/-- The BUSY bit of `STATUS` shows that the command still runs (R36). -/
theorem Waiting.busy (h : Waiting s i l) : s.statusView.getLsbD 0 = true := by
  obtain ⟨hm, _⟩ := h
  simp [s.statusView_getElem, Seq.busy, hm]

/-! ## With a budget -/

/-- One more sequencer move, taken at the end of a run of them. -/
theorem sequencerRun_succ {k : Nat} (h : sequencerRun k s = .next t) : sequencerRun (k + 1) s = t.sequencerStep := by
  induction k generalizing s with
  | zero =>
    cases h
    simp only [sequencerRun]
    split <;> simp [*]
  | succ k ih =>
    rw [sequencerRun] at h ⊢
    split at h
    · exact ih h
    · cases h
    · cases h

theorem Waiting.polled (h : Waiting s i l) (p : Word) : Waiting (polled s p) i l := h

/-- Below the budget the polls are counted and nothing else happens. -/
theorem Waiting.sequencerRun_counts (h : Waiting s i l) (hp : s.seq.polls = 0#32) {k : Nat} (hk : k < s.timeout.toNat) :
    sequencerRun k s = .next (Claims.polled s (BitVec.ofNat 32 k)) := by
  induction k with
  | zero =>
    rw [← hp]
    rfl
  | succ k ih =>
    have hlt : (BitVec.ofNat 32 k).toNat + 1 < s.timeout.toNat := by
      rw [BitVec.toNat_ofNat]
      omega
    rw [sequencerRun_succ (ih (by omega)), (h.polled _).sequencerStep, pollFailed_polled hlt, BitVec.ofNat_add]

/-- Settles O26: the polls are counted up to the last, which reaches the budget. -/
theorem waitEndsAfterExactlyTimeoutPolls : Obligations.WaitEndsAfterExactlyTimeoutPolls := by
  intro s i l h h0 hp
  refine ⟨fun k hk => h.sequencerRun_counts hp hk, ?_⟩
  obtain ⟨n, hn⟩ : ∃ n, s.timeout.toNat = n + 1 := Nat.exists_eq_succ_of_ne_zero fun hz => h0 (BitVec.eq_of_toNat_eq hz)
  have hlast : BitVec.ofNat 32 n + 1#32 = s.timeout := by
    rw [← BitVec.ofNat_add, ← hn, BitVec.ofNat_toNat, BitVec.setWidth_eq]
  rw [hn, sequencerRun_succ (h.sequencerRun_counts hp (by omega)), (h.polled _).sequencerStep,
    pollFailed_polled_last hlast h0, hlast]
  rfl

/-! ## Without a budget -/

/-- Without a budget no move but a reset or a converter step ends the wait, short of a bus error. -/
theorem Waiting.applyMove (h : Waiting s i l) (h0 : s.timeout = 0#32) {m : Move}
    (hm : m ≠ .reset ∧ ∀ e, m ≠ .converter e) :
    (∃ t, s.applyMove m = .next t ∧ Waiting t i l ∧ t.timeout = 0#32)
      ∨ ∃ a n, s.applyMove m = .fault (.busError a n) := by
  by_cases hs : m = .sequencer
  · subst hs
    exact .inl ⟨s, h.sequencerStep.trans (congrArg _ (pollFailed_unbounded h0)), h, h0⟩
  · cases ha : s.applyMove m with
    | next t =>
      obtain ⟨hseq, hadc, htimeout, _⟩ := State.applyMove_keeps_command h.1 ha hs hm.2 hm.1
      exact .inl ⟨t, rfl, h.of_eq hseq hadc, htimeout.trans h0⟩
    | fault f =>
      cases m with
      | host a =>
        obtain ⟨addr, n, rfl⟩ := State.hostStep_fault ha
        exact .inr ⟨addr, n, rfl⟩
      | sequencer => exact absurd rfl hs
      | converter | tick | reset => cases ha
    | refused r => exact absurd ha (State.applyMove_not_refused s m r)

end

/-- Settles O27: the wait and the missing budget are kept by every move, up to a bus error. -/
theorem unboundedWaitCanHang : Obligations.UnboundedWaitCanHang := by
  intro s i l ms h h0 hms
  induction ms generalizing s with
  | nil => exact .inl ⟨s, rfl, h, h.busy⟩
  | cons m ms ih =>
    obtain ⟨hm, hrest⟩ := List.forall_mem_cons.mp hms
    rcases h.applyMove h0 hm with ⟨t, ht, hwait, h0t⟩ | ⟨a, n, ha⟩
    · simpa [runMoves, ht] using ih t hwait h0t hrest
    · exact .inr ⟨a, n, by simp [runMoves, ha]⟩

end Sys2Proof.Claims
end

section
/-! The averaging pipeline (R139 to R141): the accumulator holds the exact sum of the readings taken, and a reading is
either taken or still in the data register, under every schedule. -/

namespace Sys2Proof.Claims

open Sys2Proof.Machine

/-! ## Sums of readings -/

theorem sum_le_of_forall_le {vs : List (BitVec 12)} {hi : Nat} (h : ∀ v ∈ vs, v.toNat ≤ hi) :
    (vs.map BitVec.toNat).sum ≤ vs.length * hi := by
  simpa using List.sum_le_card_nsmul (vs.map BitVec.toNat) hi (by simpa using h)

theorem le_sum_of_forall_le {vs : List (BitVec 12)} {lo : Nat} (h : ∀ v ∈ vs, lo ≤ v.toNat) :
    vs.length * lo ≤ (vs.map BitVec.toNat).sum := by
  simpa using List.card_nsmul_le_sum (vs.map BitVec.toNat) lo (by simpa using h)

theorem truncatedMean_toNat (acc : BitVec 20) (times : Byte) :
    (truncatedMean acc times).toNat = acc.toNat / times.toNat := by
  have hle := Nat.div_le_self acc.toNat times.toNat
  have hlt := acc.isLt
  rw [truncatedMean, BitVec.toNat_ofNat, Nat.mod_eq_of_lt (by omega)]

/-! ## The readings taken -/

section
variable {ch : Sel} {times : Byte} {ws : List (BitVec 12)} {s t : State}

/-- The sequencer has counted and summed the readings `ws`, all of them of channel `ch`. -/
structure Tally (ch : Sel) (ws : List (BitVec 12)) (s : State) : Prop where
  count : s.seq.k.toNat = ws.length
  sum   : s.seq.acc.toNat = (ws.map BitVec.toNat).sum
  chsel : ws ≠ [] → s.adc.chsel = ch

theorem Tally.of_eq (h : Tally ch ws s) (hk : t.seq.k = s.seq.k) (hacc : t.seq.acc = s.seq.acc)
    (hch : t.adc.chsel = s.adc.chsel) : Tally ch ws t :=
  ⟨by rw [hk, h.count], by rw [hacc, h.sum], hch ▸ h.chsel⟩

/-- S2 starts an empty tally (R139). -/
theorem Tally.startSamples (ch : Sel) (s : State) : Tally ch [] s.startSamples :=
  ⟨rfl, rfl, fun hne => absurd rfl hne⟩

theorem Tally.startConversion (h : Tally ch ws s) : Tally ch ws ((s.startConversion ch).goto .s4) :=
  ⟨h.count, h.sum, fun _ => rfl⟩

/-- A reading taken before the last is added exactly, for 255 readings fit the accumulator (R140, R141). -/
theorem Tally.accumulate (h : Tally ch ws s) (hlen : ws.length < times.toNat) (hch : s.adc.chsel = ch) :
    Tally ch (ws ++ [s.adc.dr.setWidth 12]) (s.accumulate times) := by
  have htimes := times.isLt
  have hread := (s.adc.dr.setWidth 12).isLt
  have hcount := h.count
  have hsum : s.seq.acc.toNat ≤ ws.length * 4095 := by
    rw [h.sum]
    exact sum_le_of_forall_le fun v _ => Nat.le_of_lt_succ v.isLt
  refine ⟨?_, ?_, fun _ => hch⟩
  · rw [State.accumulate_seq, List.length_append, List.length_singleton]
    show (s.seq.k + 1).toNat = ws.length + 1
    bv_omega
  · rw [State.accumulate_seq, List.map_append, List.sum_append, ← h.sum]
    show (satAdd s.seq.acc (s.adc.dr.setWidth 12)).toNat = _
    rw [satAdd_toNat (by omega)]
    simp

/-- S5 completes with the truncated mean of the readings taken (R139). -/
theorem Tally.averagedOf (h : Tally ch ws s) (hlen : ws.length = times.toNat) (ht : times ≠ 0#8)
    (hidle : notConverting s.adc) :
    AveragedOf ws ch times (s.setResult (truncatedMean s.seq.acc times)).complete := by
  have hpos : 0 < times.toNat := Nat.pos_of_ne_zero fun hz => ht (BitVec.eq_of_toNat_eq hz)
  have hmean : (truncatedMean s.seq.acc times).toNat = (ws.map BitVec.toNat).sum / times.toNat := by
    rw [truncatedMean_toNat, h.sum]
  refine ⟨rfl, rfl, hmean, fun lo hlo => ?_, fun hi hhi => ?_, h.chsel fun hnil => ?_, hidle⟩
  · refine ((Nat.le_div_iff_mul_le hpos).mpr ?_).trans_eq hmean.symm
    rw [mul_comm, ← hlen]
    exact le_sum_of_forall_le hlo
  · refine hmean.trans_le (Nat.div_le_of_le_mul ?_)
    rw [← hlen]
    exact sum_le_of_forall_le hhi
  · rw [hnil, List.length_nil] at hlen
    omega

/-! ## The schedule whose conversions each finish before their first poll -/

theorem runMoves_append {ms ms' : List Move} (h : runMoves ms s = .next t) :
    runMoves (ms ++ ms') s = runMoves ms' t := by
  induction ms generalizing s with
  | nil =>
    cases h
    rfl
  | cons m ms ih =>
    rw [List.cons_append, runMoves]
    rw [runMoves] at h
    split at h
    · next u hu => simpa [hu] using ih h
    · cases h
    · cases h

/-- Between two samples of `ADC_AVG` on an enabled converter, with the readings `ws` taken. -/
structure Between (ch : Sel) (times : Byte) (ws : List (BitVec 12)) (s : State) : Prop where
  mode    : s.seq.mode = .run
  cmd     : decode s.seq.cmd = .ok (.adcAvg ch times)
  adon    : s.adc.adon = true
  step    : s.seq.step = some (if ws.length < times.toNat then .s3 else .s5)
  tally   : Tally ch ws s
  settled : ws ≠ [] → notConverting s.adc

theorem runMoves_sequencer {i : Instr} {ms : List Move} (hm : s.seq.mode = .run) (hd : decode s.seq.cmd = .ok i)
    (he : exec i s = .next t) : runMoves (.sequencer :: ms) s = runMoves ms t := by
  simp [runMoves, State.applyMove, State.sequencerStep_run hm hd, he]

/-- S1 and S2 lead to the first sample. -/
theorem between_of_started (hm : s.seq.mode = .run) (hd : decode s.seq.cmd = .ok (.adcAvg ch times))
    (hs : s.seq.step = some .s1) (hch : ch.toNat ≤ 9) (hready : s.adc.ready = true) (ht : times ≠ 0#8)
    (hon : s.adc.adon = true) :
    ∃ t, runMoves [.sequencer, .sequencer] s = .next t ∧ Between ch times [] t := by
  have h1 : exec (.adcAvg ch times) s = .next (s.goto .s2) := by
    simp [exec_adcAvg_s1 hs, Nat.not_lt.mpr hch, ht, hready]
  have hpos : 0 < times.toNat := Nat.pos_of_ne_zero fun hz => ht (BitVec.eq_of_toNat_eq hz)
  refine ⟨(s.goto .s2).startSamples, ?_, hm, hd, hon, ?_, .startSamples ch _, fun hne => absurd rfl hne⟩
  · rw [runMoves_sequencer hm hd h1, runMoves_sequencer (s := s.goto .s2) hm hd (exec_adcAvg_s2 rfl)]
    rfl
  · rw [List.length_nil, if_pos hpos]
    rfl

/-- The state after a conversion that drew `v` (R44). -/
def drew (s : State) (v : BitVec 12) : State :=
  { s with adc := { s.adc with dr := BitVec.ofNat 16 v.toNat, eoc := true, pend := false } }

/-- A drawn value comes back whole from the data register (R44, R148). -/
theorem drew_reading (s : State) (v : BitVec 12) : (drew s v).adc.dr.setWidth 12 = v := by
  show (BitVec.ofNat 16 v.toNat).setWidth 12 = v
  rw [BitVec.ofNat_toNat, BitVec.setWidth_setWidth_of_le v (by decide), BitVec.setWidth_eq]

theorem applyMove_k3 (hon : s.adc.adon = true) (hpend : s.adc.pend = true) (v : BitVec 12) :
    s.applyMove (.converter (.k3 v)) = .next (drew s v) := by
  obtain ⟨_, _, hk3⟩ := converterSteps s hon
  exact hk3 hpend v

/-- The three moves of one sample: its start, its conversion and the poll that takes the reading. -/
theorem runMoves_sample (hm : s.seq.mode = .run) (hd : decode s.seq.cmd = .ok (.adcAvg ch times))
    (hs : s.seq.step = some .s3) (hon : s.adc.adon = true) (v : BitVec 12) :
    runMoves [.sequencer, .converter (.k3 v), .sequencer] s
      = .next ((drew ((s.startConversion ch).goto .s4) v).accumulate times) := by
  have hk3 := applyMove_k3 (s := (s.startConversion ch).goto .s4) hon rfl v
  rw [runMoves_sequencer hm hd (exec_adcAvg_s3 hs), runMoves, hk3]
  exact runMoves_sequencer (s := drew _ v) hm hd ((exec_adcAvg_s4 rfl).trans (congrArg _ (if_pos rfl)))

theorem Between.sample (h : Between ch times ws s) (hlen : ws.length < times.toNat) (v : BitVec 12) :
    ∃ t, runMoves [.sequencer, .converter (.k3 v), .sequencer] s = .next t ∧ Between ch times (ws ++ [v]) t := by
  have hs : s.seq.step = some .s3 := by rw [h.step, if_pos hlen]
  have htally : Tally ch ws (drew ((s.startConversion ch).goto .s4) v) := h.tally.startConversion.of_eq rfl rfl rfl
  have hnext := htally.accumulate hlen rfl
  rw [drew_reading] at hnext
  refine ⟨_, runMoves_sample h.mode h.cmd hs h.adon v, h.mode, h.cmd, h.adon, ?_, hnext, fun _ => ⟨rfl, rfl⟩⟩
  rw [List.length_append, List.length_singleton, ← h.tally.count]
  rfl

theorem Between.samples {vs : List (BitVec 12)} (h : Between ch times ws s)
    (hlen : ws.length + vs.length = times.toNat) :
    ∃ t, runMoves (vs.flatMap fun v => [.sequencer, .converter (.k3 v), .sequencer]) s = .next t
      ∧ Between ch times (ws ++ vs) t := by
  induction vs generalizing ws s with
  | nil => exact ⟨s, rfl, by rwa [List.append_nil]⟩
  | cons v vs ih =>
    rw [List.length_cons] at hlen
    obtain ⟨u, hu, hbetween⟩ := h.sample (by omega) v
    obtain ⟨t, ht, hdone⟩ := ih hbetween (by rw [List.length_append, List.length_singleton]; omega)
    refine ⟨t, ?_, by simpa using hdone⟩
    rw [List.flatMap_cons, runMoves_append hu, ht]

/-- The averaging schedule ends in the completed command. -/
theorem averagingMoves_complete {vs : List (BitVec 12)} (hm : s.seq.mode = .run)
    (hd : decode s.seq.cmd = .ok (.adcAvg ch times)) (hs : s.seq.step = some .s1) (hch : ch.toNat ≤ 9)
    (hready : s.adc.ready = true) (ht : times ≠ 0#8) (hon : s.adc.adon = true) (hlen : vs.length = times.toNat) :
    ∃ t, runMoves (averagingMoves vs) s = .next t ∧ t.seq.mode = .idle ∧ AveragedOf vs ch times t := by
  obtain ⟨u, hu, hfirst⟩ := between_of_started hm hd hs hch hready ht hon
  obtain ⟨w, hw, hlast⟩ := hfirst.samples (vs := vs) (by simpa using hlen)
  rw [List.nil_append] at hlast
  have hs5 : w.seq.step = some .s5 := by rw [hlast.step, if_neg (by omega)]
  have hne : vs ≠ [] := fun hnil => ht (BitVec.eq_of_toNat_eq (by rw [← hlen, hnil]; rfl))
  refine ⟨_, ?_, rfl, hlast.tally.averagedOf hlen ht (hlast.settled hne)⟩
  rw [averagingMoves, List.append_assoc, runMoves_append hu, runMoves_append hw,
    runMoves_sequencer hlast.mode hlast.cmd (exec_adcAvg_s5 hs5 ht)]
  rfl

/-! ## Every schedule -/

/-- The finished conversion that no poll has taken yet (R148). -/
def unread (a : Adc) : List (BitVec 12) := if a.eoc then [a.dr.setWidth 12] else []

theorem unread_of_notConverting {a : Adc} (h : notConverting a) : unread a = [] := by
  simp [unread, h.2]

/-- A converter step adds what it draws to the unread reading. -/
theorem unread_converterMove (hpend : s.adc.pend = true → unread s.adc = []) (e : ConverterEvent) :
    unread (s.converterMove e).adc = unread s.adc ++ drawn (.converter e) s := by
  cases e with
  | k1 | k2 =>
    simp only [State.converterMove, Adc.converterStep, drawn, List.append_nil]
    split <;> rfl
  | k3 v =>
    by_cases hk : s.adc.adon = true ∧ s.adc.pend = true
    · have hdrew : s.converterMove (.k3 v) = drew s v := Host.Outcome.next.inj (applyMove_k3 hk.1 hk.2 v)
      have hunread : unread (drew s v).adc = [v] := congrArg (fun x => [x]) (drew_reading s v)
      simp [hdrew, hunread, hpend hk.2, drawn, hk]
    · simp [State.converterMove, Adc.converterStep, drawn, hk]

/-- Where the averaging command stands with the readings `ws` taken. -/
inductive Phase (ch : Sel) (ws : List (BitVec 12)) (s : State) : Prop
  /-- In its checks, before the tally is cleared. -/
  | checking : s.seq.step = some .s1 ∨ s.seq.step = some .s2 → ws = [] → Phase ch ws s
  /-- In its samples, or before its completion. -/
  | sampling : s.seq.step = some .s3 ∨ s.seq.step = some .s4 ∨ s.seq.step = some .s5 → Tally ch ws s → Phase ch ws s

theorem Phase.of_eq (h : Phase ch ws s) (hseq : t.seq = s.seq) (hch : t.adc.chsel = s.adc.chsel) : Phase ch ws t := by
  cases h with
  | checking hs hnil => exact .checking (by rwa [hseq]) hnil
  | sampling hs ht => exact .sampling (by rwa [hseq]) (ht.of_eq (by rw [hseq]) (by rw [hseq]) hch)

end

section
variable {ch : Sel} {times : Byte} {s₀ s t : State} {vs : List (BitVec 12)}

/-- The averaging command started in `s₀` still runs, and the converter has drawn `vs` for it: the readings taken and
the one not yet taken. -/
structure Averaging (ch : Sel) (times : Byte) (s₀ : State) (vs : List (BitVec 12)) (s : State) : Prop where
  block   : BlockInv s
  mode    : s.seq.mode = .run
  cmd     : decode s.seq.cmd = .ok (.adcAvg ch times)
  ready   : s.adc.ready = true
  timeout : s.timeout = s₀.timeout
  result  : s.result = s₀.result
  phase   : ∃ ws, vs = ws ++ unread s.adc ∧ Phase ch ws s

/-- How the averaging command can have ended: with the mean of the draws, or with a wait that ran out. -/
def AveragingEnded (ch : Sel) (times : Byte) (s₀ : State) (vs : List (BitVec 12)) (t : State) : Prop :=
  (vs.length = times.toNat ∧ AveragedOf vs ch times t)
    ∨ (t.status.lastErr = 3#4 ∧ s₀.timeout ≠ 0#32 ∧ t.seq.polls = s₀.timeout ∧ t.result = s₀.result)

theorem Averaging.stepInv (h : Averaging ch times s₀ vs s) {l : MicroStep} (hl : s.seq.step = some l) :
    stepInv s (.adcAvg ch times) l := by
  obtain ⟨l', hs⟩ := h.block.standing h.mode h.cmd
  obtain rfl := hs.label_eq hl
  exact hs.inv

/-- Outside its waits the command has no conversion in flight and none to take (R147). -/
theorem Averaging.notConverting (h : Averaging ch times s₀ vs s) {l : MicroStep} (hl : s.seq.step = some l)
    (hne : l ≠ .s4) : notConverting s.adc := by
  obtain ⟨_, _, _, hidle, _⟩ := h.stepInv hl
  exact hidle hne

/-- A conversion in flight has no finished one beside it. -/
theorem Averaging.unread_of_pend (h : Averaging ch times s₀ vs s) (hpend : s.adc.pend = true) : unread s.adc = [] := by
  obtain ⟨l, hs⟩ := h.block.standing h.mode h.cmd
  by_cases hl : l = .s4
  · obtain ⟨_, _, hwait, _⟩ := hs.inv
    have hbusy : s.adc.pend = !s.adc.eoc := (hwait hl).1
    simp_all [unread]
  · exact unread_of_notConverting (h.notConverting hs.step hl)

/-- The command goes on in `t`, with the readings `ws` taken. -/
theorem Averaging.goesOn (h : Averaging ch times s₀ vs s) {m : Move} (hm : s.applyMove m = .next t)
    (hmode : t.seq.mode = s.seq.mode) (hcmd : t.seq.cmd = s.seq.cmd) (hready : t.adc.ready = s.adc.ready)
    (htimeout : t.timeout = s.timeout) (hresult : t.result = s.result) {vs' ws : List (BitVec 12)}
    (hvs : vs' = ws ++ unread t.adc) (hphase : Phase ch ws t) : Averaging ch times s₀ vs' t where
  block := h.block.applyMove hm
  mode := hmode.trans h.mode
  cmd := (congrArg decode hcmd).trans h.cmd
  ready := hready.trans h.ready
  timeout := htimeout.trans h.timeout
  result := hresult.trans h.result
  phase := ⟨ws, hvs, hphase⟩

/-! ### The moves of the other agents -/

/-- A converter step takes the command on with what it draws. -/
theorem Averaging.converter (h : Averaging ch times s₀ vs s) (e : ConverterEvent) :
    Averaging ch times s₀ (vs ++ drawn (.converter e) s) (s.converterMove e) := by
  obtain ⟨ws, rfl, hphase⟩ := h.phase
  have hkept := AdcKept.converterStep s.adc e
  refine h.goesOn (m := .converter e) rfl rfl rfl hkept.ready rfl rfl ?_ (hphase.of_eq rfl hkept.chsel)
  rw [List.append_assoc, unread_converterMove h.unread_of_pend]

/-- A host access and a tick leave the command and the ADC. -/
theorem Averaging.other (h : Averaging ch times s₀ vs s) {m : Move} (hm : s.applyMove m = .next t)
    (hs : m ≠ .sequencer) (hc : ∀ e, m ≠ .converter e) (hr : m ≠ .reset) : Averaging ch times s₀ vs t := by
  obtain ⟨hseq, hadc, htimeout, hresult⟩ := State.applyMove_keeps_command h.mode hm hs hc hr
  obtain ⟨ws, hvs, hphase⟩ := h.phase
  exact h.goesOn hm (by rw [hseq]) (by rw [hseq]) (by rw [hadc]) htimeout hresult (by rwa [hadc])
    (hphase.of_eq hseq (by rw [hadc]))

/-! ### The micro-steps -/

/-- The poll of S4 takes a reading into the tally, fails and waits on, or runs out of its budget (R137, R139). -/
theorem Averaging.poll (h : Averaging ch times s₀ vs s) (hm : s.applyMove .sequencer = .next t)
    (he : exec (.adcAvg ch times) s = .next t) (hs : s.seq.step = some .s4) {ws : List (BitVec 12)}
    (hvs : vs = ws ++ unread s.adc) (htally : Tally ch ws s) :
    Averaging ch times s₀ vs t ∨ (t.seq.mode = .idle ∧ AveragingEnded ch times s₀ vs t) := by
  obtain ⟨_, hcount, hwait, _⟩ := h.stepInv hs
  rw [exec_adcAvg_s4 hs] at he
  rcases s.poll_cases s.adc.eoc (s.accumulate times) with ⟨heoc, hp⟩ | ⟨_, _, hp⟩ | ⟨_, h0, hlast, hp⟩ | ⟨_, _, _, hp⟩
    <;> rw [hp] at he <;> cases he
  · have hlen : ws.length < times.toNat := htally.count ▸ (hcount (by decide)).1
    have hnext := htally.accumulate hlen (hwait rfl).2.1
    rw [unread, if_pos heoc] at hvs
    refine .inl (h.goesOn hm rfl rfl rfl rfl rfl (hvs.trans (List.append_nil _).symm) (.sampling ?_ hnext))
    rw [State.accumulate_seq]
    split
    · exact .inl rfl
    · exact .inr (.inr rfl)
  · exact .inl h
  · exact .inr ⟨rfl, .inr ⟨rfl, h.timeout ▸ h0, hlast.trans h.timeout, h.result⟩⟩
  · exact .inl (h.goesOn hm rfl rfl rfl rfl rfl hvs (.sampling (.inr (.inl hs)) (htally.of_eq rfl rfl rfl)))

/-- A sequencer move takes the command on, or ends it with the mean of the draws or with a wait that ran out. -/
theorem Averaging.sequencer (h : Averaging ch times s₀ vs s) (hch : ch.toNat ≤ 9) (ht : times ≠ 0#8)
    (hm : s.applyMove .sequencer = .next t) :
    Averaging ch times s₀ vs t ∨ (t.seq.mode = .idle ∧ AveragingEnded ch times s₀ vs t) := by
  have he : exec (.adcAvg ch times) s = .next t := (State.sequencerStep_run h.mode h.cmd).symm.trans hm
  obtain ⟨ws, hvs, ⟨hs | hs, rfl⟩ | ⟨hs | hs | hs, htally⟩⟩ := h.phase
  · rw [exec_adcAvg_s1 hs, if_neg (Nat.not_lt.mpr hch), if_neg ht, if_neg (by simp [h.ready])] at he
    cases he
    exact .inl (h.goesOn hm rfl rfl rfl rfl rfl hvs (.checking (.inr rfl) rfl))
  · rw [exec_adcAvg_s2 hs] at he
    cases he
    exact .inl (h.goesOn hm rfl rfl rfl rfl rfl hvs (.sampling (.inl rfl) (.startSamples ch s)))
  · rw [exec_adcAvg_s3 hs] at he
    cases he
    rw [unread_of_notConverting (h.notConverting hs nofun)] at hvs
    exact .inl (h.goesOn hm rfl rfl rfl rfl rfl hvs (.sampling (.inr (.inl rfl)) htally.startConversion))
  · exact h.poll hm he hs hvs htally
  · rw [exec_adcAvg_s5 hs ht] at he
    cases he
    have hidle := h.notConverting hs nofun
    obtain ⟨_, _, _, _, hlast⟩ := h.stepInv hs
    have hlen : ws.length = times.toNat := by rw [← htally.count, (hlast rfl).1]
    rw [unread_of_notConverting hidle, List.append_nil] at hvs
    subst hvs
    exact .inr ⟨rfl, .inl ⟨hlen, htally.averagedOf hlen ht hidle⟩⟩

/-- Every move but a reset takes the command on, with its draw, or ends it. -/
theorem Averaging.applyMove (h : Averaging ch times s₀ vs s) (hch : ch.toNat ≤ 9) (ht : times ≠ 0#8) {m : Move}
    (hr : m ≠ .reset) (hm : s.applyMove m = .next t) :
    Averaging ch times s₀ (vs ++ drawn m s) t
      ∨ (t.seq.mode = .idle ∧ AveragingEnded ch times s₀ (vs ++ drawn m s) t) := by
  cases m with
  | host a => exact .inl (by simpa [drawn] using h.other hm nofun nofun nofun)
  | sequencer => simpa [drawn] using h.sequencer hch ht hm
  | converter e =>
    cases hm
    exact .inl (h.converter e)
  | tick i => exact .inl (by simpa [drawn] using h.other hm nofun nofun nofun)
  | reset => exact absurd rfl hr

/-! ### Every run -/

/-- A run that ends at its first idle state ends with the mean of all its draws, or with a wait that ran out. -/
theorem Averaging.run_ended (hch : ch.toNat ≤ 9) (ht : times ≠ 0#8) {ms : List Move} (h : Averaging ch times s₀ vs s)
    (hms : ∀ m ∈ ms, m ≠ .reset)
    (hrun : ∀ k < ms.length, ∀ u, runMoves (ms.take k) s = .next u → u.seq.mode = .run)
    (hend : runMoves ms s = .next t) (hidle : t.seq.mode = .idle) :
    AveragingEnded ch times s₀ (vs ++ drawsOf ms s) t := by
  induction ms generalizing vs s with
  | nil =>
    cases hend
    exact absurd (h.mode.symm.trans hidle) nofun
  | cons m ms ih =>
    obtain ⟨hm, hrest⟩ := List.forall_mem_cons.mp hms
    cases hu : s.applyMove m with
    | fault f => simp [runMoves, hu] at hend
    | refused r => simp [runMoves, hu] at hend
    | next u =>
      simp only [runMoves, hu] at hend
      simp only [drawsOf, hu, ← List.append_assoc]
      rcases h.applyMove hch ht hm hu with hnext | ⟨hui, hended⟩
      · refine ih hnext hrest (fun k hk w hw => hrun (k + 1) (Nat.succ_lt_succ hk) w ?_) hend
        simpa [runMoves, hu] using hw
      · cases ms with
        | nil =>
          cases hend
          simpa [drawsOf] using hended
        | cons m' ms =>
          have hmode := hrun 1 (by simp) u (by simp [runMoves, hu])
          exact absurd (hmode.symm.trans hui) nofun

end

/-- Settles O28: the accumulator holds the sum of the readings taken under every schedule, so the completion divides the
sum of all draws; the fixed schedule is run sample by sample. -/
theorem averagingComputesTheTruncatedMean : Obligations.AveragingComputesTheTruncatedMean := by
  intro s ch times hm hd hs hch hready ht
  refine ⟨fun vs hon hlen => averagingMoves_complete hm hd hs hch hready ht hon hlen,
    fun ms t hB hms hrun hend hidle => ?_⟩
  obtain ⟨_, l, hl, _, _, _, _, hnone, _⟩ := (seqInv_run hm hd).mp hB.seq
  obtain rfl : MicroStep.s1 = l := Option.some.inj (hs.symm.trans hl)
  have hstart : Averaging ch times s [] s :=
    ⟨hB, hm, hd, hready, rfl, rfl, [], (unread_of_notConverting (hnone nofun)).symm, .checking (.inl hs) rfl⟩
  exact hstart.run_ended hch ht hms hrun hend hidle

end Sys2Proof.Claims
end

section
/-! The tick of a timer in numbers (R170, R171), and from it one output period: its length (R175) and the share of it
for which the line is high (R178). -/

namespace Sys2Proof.Machine

open Sys2Proof.Claims

/-! ## One tick -/

/-- The three things a tick can do, told apart by the counters as numbers. -/
theorem Timer.tick_eq (t : Timer) :
    t.tick =
      if t.pscCnt.toNat < t.pscAct.toNat then { t with pscCnt := t.pscCnt + 1#16 }
      else if t.arrAct.toNat ≤ t.cnt.toNat then timerWrapped t
      else { t with pscCnt := 0#16, cnt := t.cnt + 1#32 } := by
  rw [← t.update_eq_timerWrapped]
  rfl

/-- Settles O35: the tick move of a running timer replaces it by its tick. -/
theorem timerTick : Obligations.TimerTick := by
  intro s t hcen
  rw [← Timer.tick_eq]
  simp [State.applyMove, State.tickMove, hcen]

/-! ## Counting through one period -/

/-- The timer with its counters at `q` intermediate ticks and `r` timer-clock cycles. -/
def Timer.counted (t : Timer) (q r : Nat) : Timer :=
  { t with cnt := BitVec.ofNat 32 q, pscCnt := BitVec.ofNat 16 r }

section
variable {t : Timer} {q r : Nat}

/-- Inside an intermediate tick the prescaler counts. -/
theorem Timer.tick_counted_lt (hr : r < t.pscAct.toNat) : (t.counted q r).tick = t.counted q (r + 1) := by
  have hlt : r % 65536 < t.pscAct.toNat := (Nat.mod_le _ _).trans_lt hr
  simp [Timer.tick_eq, Timer.counted, hlt, BitVec.ofNat_add]

/-- At the end of an intermediate tick the counter counts. -/
theorem Timer.tick_counted_last (hq : q < t.arrAct.toNat) :
    (t.counted q t.pscAct.toNat).tick = t.counted (q + 1) 0 := by
  have hlt : q % 4294967296 < t.arrAct.toNat := (Nat.mod_le _ _).trans_lt hq
  simp [Timer.tick_eq, Timer.counted, hlt, BitVec.ofNat_add]

end

/-- At the end of the last intermediate tick the counter wraps. -/
theorem Timer.tick_counted_wraps (t : Timer) : (t.counted t.arrAct.toNat t.pscAct.toNat).tick = timerWrapped t := by
  simp [Timer.tick_eq, Timer.counted, timerWrapped]

theorem tickRun_eq_iterate (k : Nat) (t : Timer) : tickRun k t = Timer.tick^[k] t := by
  induction k generalizing t with
  | zero => rfl
  | succ k ih => exact ih t.tick

theorem tickRun_add (m n : Nat) (t : Timer) : tickRun (m + n) t = tickRun m (tickRun n t) := by
  simp only [tickRun_eq_iterate, Function.iterate_add_apply]

theorem tickRun_succ (k : Nat) (t : Timer) : tickRun (k + 1) t = (tickRun k t).tick := by
  rw [Nat.add_comm, tickRun_add]
  rfl

/-- The cycles of one intermediate tick. -/
theorem tickRun_counted_cycles {t : Timer} {r : Nat} (q : Nat) (hr : r ≤ t.pscAct.toNat) :
    tickRun r (t.counted q 0) = t.counted q r := by
  induction r with
  | zero => rfl
  | succ r ih => rw [tickRun_succ, ih (by omega), Timer.tick_counted_lt hr]

/-- Whole intermediate ticks, `PSC_ACT + 1` cycles each. -/
theorem tickRun_counted_ticks {t : Timer} {q : Nat} (hq : q ≤ t.arrAct.toNat) :
    tickRun ((t.pscAct.toNat + 1) * q) (t.counted 0 0) = t.counted q 0 := by
  induction q with
  | zero => rfl
  | succ q ih =>
    have hcycles : (t.pscAct.toNat + 1) * (q + 1) = t.pscAct.toNat + 1 + (t.pscAct.toNat + 1) * q := by ring
    rw [hcycles, tickRun_add, ih (by omega), tickRun_succ, tickRun_counted_cycles q le_rfl, Timer.tick_counted_last hq]

/-- Inside a period: `q` whole intermediate ticks and `r` cycles of the next one. -/
theorem tickRun_counted {t : Timer} {q r : Nat} (hq : q ≤ t.arrAct.toNat) (hr : r ≤ t.pscAct.toNat) :
    tickRun (r + (t.pscAct.toNat + 1) * q) (t.counted 0 0) = t.counted q r := by
  rw [tickRun_add, tickRun_counted_ticks hq, tickRun_counted_cycles q hr]

/-- Settles O37: a cycle count inside the period is its quotient and remainder, and the wrap ends the last cycle. -/
theorem outputPeriodLength : Obligations.OutputPeriodLength := by
  intro t hcnt hpsc
  have hstart : t = t.counted 0 0 := by rw [Timer.counted, ← hcnt, ← hpsc]
  refine ⟨fun j hj => ?_, ?_⟩
  · have hq : j / (t.pscAct.toNat + 1) ≤ t.arrAct.toNat := Nat.lt_succ_iff.mp (Nat.div_lt_of_lt_mul hj)
    have hr : j % (t.pscAct.toNat + 1) ≤ t.pscAct.toNat := Nat.lt_succ_iff.mp (Nat.mod_lt j (Nat.succ_pos _))
    have hrun := tickRun_counted hq hr
    rwa [Nat.mod_add_div, ← hstart] at hrun
  · have hperiod : (t.pscAct.toNat + 1) * (t.arrAct.toNat + 1)
        = t.pscAct.toNat + (t.pscAct.toNat + 1) * t.arrAct.toNat + 1 := by ring
    have hlast := tickRun_counted (t := t) le_rfl le_rfl
    rw [← hstart] at hlast
    rw [hperiod, tickRun_succ, hlast, Timer.tick_counted_wraps]

/-! ## The duty of one period -/

theorem countP_range_lt (k n : Nat) : (List.range n).countP (fun v => decide (v < k)) = min k n := by
  induction n with
  | zero => simp
  | succ n ih =>
    simp only [List.range_succ, List.countP_append, List.countP_singleton, decide_eq_true_eq, ih]
    split <;> omega

/-- The line of an enabled channel in PWM mode 1 at counter value `v` (R177). -/
theorem Timer.out_at {t : Timer} {c : ChanId} (hcce : (t.ch c).cce = true) (hpwm : (t.ch c).pwm1 = true) {v : Nat}
    (hv : v < 2 ^ 32) :
    Timer.out { t with cnt := BitVec.ofNat 32 v } c = decide (v < (t.ch c).ccrAct.toNat) := by
  have hch : Timer.ch { t with cnt := BitVec.ofNat 32 v } c = t.ch c := by cases c <;> rfl
  have hval : v % 4294967296 = v := Nat.mod_eq_of_lt hv
  simp [Timer.out, hch, hcce, hpwm, BitVec.lt_def, hval]

/-- Settles O38: the line compares the counter value with `CCR_ACT`, and the period's values are an initial range. -/
theorem outputDuty : Obligations.OutputDuty := by
  intro t c hcce hpwm
  have harr := t.arrAct.isLt
  rw [← countP_range_lt]
  refine List.countP_congr fun v hv => ?_
  rw [Timer.out_at hcce hpwm (by have := List.mem_range.mp hv; omega)]

end Sys2Proof.Machine
end

section
/-! The duty-to-compare mapper (R176): the operand's exact value clamped once, the product rounded once. -/

namespace Sys2Proof.Machine

/-! ## The clamped operand, by the class of its pattern -/

theorem clampedOperand_of_isNaN {f : Word} (h : isNaN f = true) (hi : Rat) : clampedOperand f hi = 0 := if_pos h

theorem clampedOperand_negInf (hi : Rat) : clampedOperand negInf hi = 0 := by
  have hnan : ¬ isNaN negInf = true := by decide
  rw [clampedOperand, if_neg hnan, if_pos rfl]

theorem clampedOperand_posInf (hi : Rat) : clampedOperand posInf hi = hi := by
  have hnan : ¬ isNaN posInf = true := by decide
  have hneg : posInf ≠ negInf := by decide
  rw [clampedOperand, if_neg hnan, if_neg hneg, if_pos rfl]

/-- A NaN and the two infinities have the exponent field of all ones. -/
theorem clampedOperand_of_finite {f : Word} (h : expField f ≠ 0xFF#8) (hi : Rat) :
    clampedOperand f hi = clampRat (finiteValue f) 0 hi := by
  have hnan : ¬ isNaN f = true := by simp [isNaN, h]
  have hneg : f ≠ negInf := by
    rintro rfl
    exact h (by decide)
  have hpos : f ≠ posInf := by
    rintro rfl
    exact h (by decide)
  rw [clampedOperand, if_neg hnan, if_neg hneg, if_neg hpos]

theorem clampRat_of_nonpos {q hi : Rat} (hhi : 0 ≤ hi) (h : q ≤ 0) : clampRat q 0 hi = 0 := by
  rw [clampRat, max_eq_right h, min_eq_left hhi]

theorem clampRat_of_ge {q hi : Rat} (h : hi ≤ q) : clampRat q 0 hi = hi := min_eq_right (h.trans (le_max_left q 0))

theorem clampRat_of_mem {q hi : Rat} (h0 : 0 ≤ q) (h1 : q ≤ hi) : clampRat q 0 hi = q := by
  rw [clampRat, max_eq_left h0, min_eq_left h1]

/-! ## Rounding to the nearest count, ties up -/

theorem rhu_spec {q : Rat} (h : 0 ≤ q) : (rhu q : Rat) ≤ q + 1 / 2 ∧ q + 1 / 2 < (rhu q : Rat) + 1 :=
  ⟨Nat.floor_le (by linarith), Nat.lt_floor_add_one _⟩

/-- Settles O33: `q` is the clamped operand, and `rhu` rounds the exact product. -/
theorem pulseLaw : Obligations.PulseLaw := by
  intro f arr
  have hq := (clampedOperand_mem f (hi := 100) (by norm_num)).1
  have hround := rhu_spec (q := clampedOperand f 100 * ((arr : Rat) + 1) / 100) (by positivity)
  refine ⟨clampedOperand f 100, fun h => clampedOperand_of_isNaN h _, ?_, ?_, fun hfin => ?_, hround.1, hround.2,
    pulse_le f arr⟩
  · rintro rfl
    exact clampedOperand_negInf _
  · rintro rfl
    exact clampedOperand_posInf _
  · rw [clampedOperand_of_finite hfin]
    exact ⟨clampRat_of_nonpos (by norm_num), clampRat_of_ge, clampRat_of_mem⟩

end Sys2Proof.Machine
end

section
/-! The frequency divider (R172, R175) and the micro-steps of the PWM Generator's commands (R180 to R186), each as the
next state it gives. -/

namespace Sys2Proof.Machine

open Sys2Proof.Claims

/-! ## The frequency divider (R172) -/

/-- The checks of `PERIOD` in their order. -/
theorem periodOf_eq (bits f : Nat) :
    periodOf bits f =
      if f = 0 ∨ 1000000 < f then .error .invalidArgument
      else if 2 ^ bits - 2 < 1000000 / f - 1 then .error .configurationError
      else .ok (1000000 / f - 1) := by
  rw [ite_or]
  rfl

theorem periodOf_eq_invalidArgument_iff {bits f : Nat} :
    periodOf bits f = .error .invalidArgument ↔ f = 0 ∨ 1000000 < f := by
  rw [periodOf_eq]
  split
  · next hbad => exact iff_of_true rfl hbad
  · next hgood =>
    refine iff_of_false ?_ hgood
    split <;> exact nofun

theorem periodOf_eq_ok {bits f : Nat} (h0 : 0 < f) (h1 : f ≤ 1000000) (hfits : 1000000 / f - 1 ≤ 2 ^ bits - 2) :
    periodOf bits f = .ok (1000000 / f - 1) := by
  rw [periodOf_eq, if_neg (by omega), if_neg (Nat.not_lt.mpr hfits)]

/-- A period that 16 bits hold is one of a frequency of at least 16 Hz. -/
theorem div_fits_sixteen_bits_iff {f : Nat} (h0 : 0 < f) : 1000000 / f - 1 ≤ 2 ^ 16 - 2 ↔ 16 ≤ f := by
  have hdiv : 1000000 / f < 65536 ↔ 1000000 < 65536 * f := Nat.div_lt_iff_lt_mul h0
  omega

/-- A quotient by the remainder's bounds. -/
theorem eq_div_sub_one_iff {f p : Nat} (h0 : 0 < f) (h1 : f ≤ 1000000) :
    p = 1000000 / f - 1 ↔ (p + 1) * f ≤ 1000000 ∧ 1000000 < (p + 2) * f := by
  rw [← Nat.le_div_iff_mul_le h0, ← Nat.div_lt_iff_lt_mul h0]
  have hpos : 0 < 1000000 / f := Nat.div_pos h1 h0
  omega

/-- Settles O31: the checks of `PERIOD`, and its quotient by the bounds of the remainder. -/
theorem periodOfAFrequency : Obligations.PeriodOfAFrequency := by
  refine ⟨fun f p => ⟨fun h => ?_, ?_⟩, fun _ _ => periodOf_eq_invalidArgument_iff, fun bits f p hbits h => ?_⟩
  · obtain ⟨h0, h1, hp, hfits⟩ := periodOf_ok h
    rw [hp] at hfits
    exact ⟨(div_fits_sixteen_bits_iff h0).mp hfits, h1, (eq_div_sub_one_iff h0 h1).mp hp⟩
  · rintro ⟨h16, h1, hp⟩
    have h0 : 0 < f := by omega
    rw [(eq_div_sub_one_iff h0 h1).mpr hp]
    exact periodOf_eq_ok h0 h1 ((div_fits_sixteen_bits_iff h0).mpr h16)
  · obtain ⟨_, _, hp, hfits⟩ := periodOf_ok h
    have hpow : 2 ^ 15 ≤ 2 ^ bits := Nat.pow_le_pow_right (by norm_num) hbits
    have hdiv : p ≤ 1000000 - 1 := hp ▸ Nat.sub_le_sub_right (Nat.div_le_self _ _) 1
    omega

/-! ## Selectors inside their domains (R105) -/

theorem timerOfSel_of_num {t : Sel} {tid : TimerId} (h : t.toNat = timerNum tid) : timerOfSel t = some tid := by
  obtain rfl : t = BitVec.ofNat 4 (timerNum tid) := by rw [← h, BitVec.ofNat_toNat, BitVec.setWidth_eq]
  cases tid <;> rfl

theorem chanOfSel_of_num {c : Sel} {cid : ChanId} (h : c.toNat = chanNum cid) : chanOfSel c = some cid := by
  obtain rfl : c = BitVec.ofNat 4 (chanNum cid) := by rw [← h, BitVec.ofNat_toNat, BitVec.setWidth_eq]
  cases cid <;> rfl

theorem exists_timerOfSel {t : Sel} (h : t.toNat < 3) : ∃ tid, timerOfSel t = some tid :=
  Option.isSome_iff_exists.mp ((by decide : ∀ t : Sel, t.toNat < 3 → (timerOfSel t).isSome = true) t h)

/-! ## `PWM_INIT` (R180) -/

/-- The whole timer after the configuration, stopped or running before it (R174). -/
theorem Timer.configure_eq_timerInitialised (t : Timer) (psc : BitVec 16) (arr : BitVec 32) :
    t.configure psc arr = timerInitialised t psc arr := by
  cases hc : t.cen with
  | true =>
    rw [Timer.configure_running t psc arr hc]
    simp [timerInitialised, channelInitialised, Timer.mapCh, Channel.configure, hc]
  | false =>
    rw [Timer.configure_stopped t psc arr hc]
    simp [timerInitialised, channelInitialised, Timer.mapCh, Channel.configure, Timer.forcedLoad, Channel.load, hc]

theorem exec_pwmInit_s1 {s : State} {t : Sel} {tid : TimerId} (hs : s.seq.step = some .s1)
    (ht : timerOfSel t = some tid) :
    exec (.pwmInit t) s =
      .next (if s.seq.arg.toNat = 0 ∨ 1000000 < s.seq.arg.toNat then s.raise .invalidArgument
        else if 2 ^ s.params.timerBits - 2 < 1000000 / s.seq.arg.toNat - 1 then s.raise .configurationError
        else s.goto .s2) := by
  simp only [exec, execPwmInit, hs, ht, u32, periodOf_eq]
  split_ifs <;> rfl

theorem exec_pwmInit_s2 {s : State} {t : Sel} {tid : TimerId} {p : Nat} (hs : s.seq.step = some .s2)
    (ht : timerOfSel t = some tid) (hp : periodOf s.params.timerBits (u32 s.seq.arg) = .ok p) :
    exec (.pwmInit t) s = .next (s.configureTimer tid p).complete := by
  simp only [exec, execPwmInit, hs, ht, hp]

/-- Settles O30: S1 by its checks in their order, S2 by the configuration of the whole timer. -/
theorem pwmInitMicroSteps : Obligations.PwmInitMicroSteps := by
  intro s t
  refine ⟨fun hs => ⟨fun ht => exec_of_selectorInvalid (i := .pwmInit t) ht hs, fun ht => ?_⟩,
    fun hs tid ht h0 h1 hfits => ?_⟩
  · obtain ⟨tid, htid⟩ := exists_timerOfSel ht
    exact exec_pwmInit_s1 hs htid
  · rw [exec_pwmInit_s2 hs (timerOfSel_of_num ht) (periodOf_eq_ok h0 h1 hfits),
      State.configureTimer, Timer.configure_eq_timerInitialised]
    rfl

/-! ## The commands on one channel (R182 to R186) -/

/-- A compare write in raw fields (R183). -/
theorem State.writeCcr_eq_withCcr (s : State) (t : TimerId) (c : ChanId) (v : Nat) :
    s.writeCcr t c v = withCcr s t c v := by
  have hch (x : Channel) (w : BitVec 32) : x.writeCcr w = ccrWritten x w := by
    cases ho : x.ocpe <;> simp [Channel.writeCcr, ccrWritten, ho]
  rw [State.writeCcr, Timer.writeCcr, hch, withCcr]

section
variable {s : State} {t c : Sel} {tid : TimerId} {cid : ChanId}

theorem State.checkChannel_ready (ht : t.toNat = timerNum tid) (hc : c.toNat = chanNum cid)
    (hr : (s.timer tid).ready = true) : s.checkChannel t c = .ok (tid, cid) := by
  simp only [State.checkChannel, timerOfSel_of_num ht, chanOfSel_of_num hc, if_pos hr]

theorem State.checkChannel_notReady (ht : t.toNat = timerNum tid) (hc : c.toNat = chanNum cid)
    (hr : (s.timer tid).ready = false) : s.checkChannel t c = .error .notReady := by
  simp [State.checkChannel, timerOfSel_of_num ht, chanOfSel_of_num hc, hr]

end

/-- Settles O32: the shared check, then one compare write. -/
theorem pwmSetDutyResult : Obligations.PwmSetDutyResult := by
  intro s t c hs
  refine ⟨fun h => ?_, fun tid cid ht hc => ⟨fun hr => ?_, fun hr => ?_⟩⟩
  · exact exec_of_selectorInvalid (i := .pwmSetDuty t c) (h.imp_right (Or.imp_left Nat.lt_one_iff.mp)) hs
  · simp only [exec, execPwmSetDuty, hs, State.checkChannel_notReady ht hc hr]
    rfl
  · simp only [exec, execPwmSetDuty, hs, State.checkChannel_ready ht hc hr, State.writeCcr_eq_withCcr]
    rfl

/-- Settles O34: the shared check, then one output enable. -/
theorem pwmStartAndStopResult : Obligations.PwmStartAndStopResult := by
  intro s t c hs
  refine ⟨fun h => ?_, fun tid cid ht hc => ⟨fun hr => ?_, fun hr => ?_⟩⟩
  · have hsel := h.imp_right (Or.imp_left Nat.lt_one_iff.mp)
    exact ⟨exec_of_selectorInvalid (i := .pwmStart t c) hsel hs,
      exec_of_selectorInvalid (i := .pwmStop t c) hsel hs⟩
  · simp only [exec, execPwmStart, execPwmStop, hs, State.checkChannel_notReady ht hc hr]
    exact ⟨rfl, rfl⟩
  · simp only [exec, execPwmStart, execPwmStop, hs, State.checkChannel_ready ht hc hr]
    exact ⟨rfl, rfl⟩

end Sys2Proof.Machine
end

section
/-! The motor interlock (R216): the preloads of a pair are written together, at most one of them nonzero, and the active
copies take over all preloads of the timer at once. -/

namespace Sys2Proof.Machine

/-! ## The channels of the pairs (R217) -/

theorem fwdChan_inj {a b : ActuatorId} : fwdChan a = fwdChan b ↔ a = b := by cases a <;> cases b <;> decide

theorem revChan_inj {a b : ActuatorId} : revChan a = revChan b ↔ a = b := by cases a <;> cases b <;> decide

theorem fwdChan_ne_revChan (a b : ActuatorId) : fwdChan a ≠ revChan b := by cases a <;> cases b <;> decide

/-! ## The two halves of the interlock -/

/-- The preloads of each motor's pair obey the interlock. -/
def Timer.PreloadsExclusive (t : Timer) : Prop := ∀ a, atMostOne (t.ch (fwdChan a)).ccrPre (t.ch (revChan a)).ccrPre

/-- The active copies of each motor's pair obey the interlock. -/
def Timer.ActivesExclusive (t : Timer) : Prop := ∀ a, atMostOne (t.ch (fwdChan a)).ccrAct (t.ch (revChan a)).ccrAct

theorem interlock_iff (s : State) :
    Interlock s ↔ (s.timer Config.motorTimer).PreloadsExclusive ∧ (s.timer Config.motorTimer).ActivesExclusive :=
  forall_and

theorem interlock_systemReset (s : State) : Interlock s.systemReset := by
  intro a
  cases a <;> exact ⟨.inl rfl, .inl rfl⟩

/-! ## The active copies: kept, or all taken over from the preloads (R171, R174) -/

/-- `y` has the compare copies that were active in `x`, or on every channel the one that was preloaded in `x`. -/
def ActivesKeptOrLoaded (x y : Timer) : Prop :=
  (∀ c, (y.ch c).ccrAct = (x.ch c).ccrAct) ∨ ∀ c, (y.ch c).ccrAct = (x.ch c).ccrPre

theorem ActivesKeptOrLoaded.of_eq {x y : Timer} (h : y = x) : ActivesKeptOrLoaded x y := .inl fun c => by rw [h]

theorem ActivesKeptOrLoaded.sameActive {x y z : Timer} (h : ActivesKeptOrLoaded x y) (h' : SameActive y z) :
    ActivesKeptOrLoaded x z :=
  h.imp (fun hk c => (h'.ccrAct c).trans (hk c)) (fun hl c => (h'.ccrAct c).trans (hl c))

theorem ActivesKeptOrLoaded.activesExclusive {x y : Timer} (h : ActivesKeptOrLoaded x y) (hp : x.PreloadsExclusive)
    (ha : x.ActivesExclusive) : y.ActivesExclusive := by
  intro a
  rcases h with hk | hl
  · rw [hk, hk]
    exact ha a
  · rw [hl, hl]
    exact hp a

/-- A running timer's configuration leaves the active copies, a stopped one's loads them (R174). -/
theorem Timer.configure_activesKeptOrLoaded (t : Timer) (p : BitVec 16) (a : BitVec 32) :
    ActivesKeptOrLoaded t (t.configure p a) := by
  cases hc : t.cen with
  | true =>
    rw [Timer.configure_running t p a hc]
    exact .inl fun c => by cases c <;> rfl
  | false =>
    rw [Timer.configure_stopped t p a hc]
    exact .inr fun c => by cases c <;> rfl

/-- The wrap of a running timer loads every channel, for a running timer is buffered (R171, R180). -/
theorem TimerInv.tick_activesKeptOrLoaded {bits psc : Nat} {t : Timer} (h : TimerInv bits psc t) (hc : t.cen = true) :
    ActivesKeptOrLoaded t t.tick := by
  rcases t.tick_wraps_or_keeps with hw | ⟨_, _, hk⟩
  · rw [hw]
    refine .inr fun c => ?_
    have ho := ((h.on (h.ready_of_cen hc)).2.2 c).2
    cases c <;> exact if_pos ho
  · exact .inl hk

theorem TimerWrites.activesKeptOrLoaded {bits psc : Nat} {x y : Timer} (hb : bits ≤ 32) (hp : psc < 2 ^ 16)
    (hx : TimerInv bits psc x) (h : TimerWrites bits psc x y) : ActivesKeptOrLoaded x y := by
  induction h with
  | refl => exact .of_eq rfl
  | configure _ => exact x.configure_activesKeptOrLoaded _ _
  | setCce c b _ _ ih => exact ih.sameActive (.setCce _ c b)
  | writeCcr c hw hr _ ih =>
    have ho := ((hw.timerInv hb hp hx).on hr).2.2 c
    exact ih.sameActive (.writeCcr _ ho.2)

/-- Of a state that meets the invariant every command leaves the active copies or loads them all. -/
theorem Standing.activesKeptOrLoaded {i : Instr} {l : MicroStep} {s t : State} (h : Standing i l s)
    (he : exec i s = .next t) (j : TimerId) : ActivesKeptOrLoaded (s.timer j) (t.timer j) := by
  have hb := h.block
  have hpsc := pscVal_lt j (paramsValid_clk hb.params j).2.2
  exact (exec_timersWritten hb.params h.step h.inv he j).activesKeptOrLoaded (paramsValid_bits hb.params).2 hpsc
    (hb.timers j)

/-! ## The preloads: written in pairs (R213) -/

/-- Two timers with the same preloads obey the interlock in them alike. -/
theorem Timer.PreloadsExclusive.of_eq {x y : Timer} (hx : x.PreloadsExclusive)
    (h : ∀ c, (y.ch c).ccrPre = (x.ch c).ccrPre) : y.PreloadsExclusive := by
  intro a
  rw [h, h]
  exact hx a

theorem Timer.setCce_ccrPre (t : Timer) (c : ChanId) (b : Bool) (d : ChanId) :
    ((t.setCce c b).ch d).ccrPre = (t.ch d).ccrPre := by
  rw [Timer.ch_setCce]
  split
  · next hd => rw [hd]
  · rfl

theorem Timer.configure_ccrPre (t : Timer) (p : BitVec 16) (a : BitVec 32) (d : ChanId) :
    ((t.configure p a).ch d).ccrPre = (t.ch d).ccrPre := by
  cases hc : t.cen with
  | true =>
    rw [Timer.configure_running t p a hc]
    cases d <;> rfl
  | false =>
    rw [Timer.configure_stopped t p a hc]
    cases d <;> rfl

theorem Timer.tick_ccrPre (t : Timer) (d : ChanId) : (t.tick.ch d).ccrPre = (t.ch d).ccrPre := by
  rcases t.tick_cases with ⟨_, h⟩ | ⟨_, _, h⟩ | ⟨_, _, h⟩ <;> rw [h]
  · cases d <;> rfl
  · cases d <;> rfl
  · rw [Timer.ch_update, Channel.update_ccrPre]
    cases d <;> rfl

section
variable {s : State}

theorem Timer.PreloadsExclusive.setCce (h : (s.timer Config.motorTimer).PreloadsExclusive) (j : TimerId) (c : ChanId)
    (b : Bool) : ((s.setCce j c b).timer Config.motorTimer).PreloadsExclusive := by
  rw [State.timer_setCce]
  split
  · next hj => exact (hj ▸ h).of_eq (Timer.setCce_ccrPre _ c b)
  · exact h

theorem Timer.PreloadsExclusive.configureTimer (h : (s.timer Config.motorTimer).PreloadsExclusive) (j : TimerId)
    (p : Nat) : ((s.configureTimer j p).timer Config.motorTimer).PreloadsExclusive := by
  rw [State.timer_configureTimer]
  split
  · next hj => exact (hj ▸ h).of_eq (Timer.configure_ccrPre _ _ _)
  · exact h

theorem State.timer_writePair (s : State) (a : ActuatorId) (fwd rev : Nat) :
    (s.writePair a fwd rev).timer Config.motorTimer =
      ((s.timer Config.motorTimer).writeCcr (fwdChan a) (BitVec.ofNat 32 fwd)).writeCcr (revChan a)
        (BitVec.ofNat 32 rev) := by
  simp [State.writePair, State.timer_writeCcr]

/-- A pair written with a zero obeys the interlock, and the other pair is left. -/
theorem Timer.PreloadsExclusive.writePair (h : (s.timer Config.motorTimer).PreloadsExclusive) (a : ActuatorId)
    {fwd rev : Nat} (hz : fwd = 0 ∨ rev = 0) :
    ((s.writePair a fwd rev).timer Config.motorTimer).PreloadsExclusive := by
  intro b
  simp only [State.timer_writePair, Timer.ch_writeCcr, fwdChan_inj, revChan_inj, fwdChan_ne_revChan,
    (fwdChan_ne_revChan _ _).symm, if_false]
  split
  · simp only [Channel.writeCcr_ccrPre]
    exact hz.imp (congrArg _) (congrArg _)
  · exact h b

/-- Both compare values of an encoded speed, of which one is 0 (R212, R218). -/
theorem motorPulse_encodeSpeed_exclusive (db arr : Nat) (x : Int) :
    motorPulse (encodeSpeed db x).1 arr = 0 ∨ motorPulse (encodeSpeed db x).2 arr = 0 := by
  obtain ⟨_, _, hz⟩ := encodeSpeed_bounds db x
  exact hz.imp (fun h => by rw [h, motorPulse_zero]) (fun h => by rw [h, motorPulse_zero])

variable {t : State}

theorem execPwmInit_preloads {x : Sel} (h : (s.timer Config.motorTimer).PreloadsExclusive)
    (he : execPwmInit x s = .next t) : (t.timer Config.motorTimer).PreloadsExclusive := by
  unfold execPwmInit at he
  repeat' split at he
  all_goals cases he
  · exact h
  · exact h
  · exact h
  · exact h.configureTimer _ _

theorem execPwmStart_preloads {x c : Sel} (h : (s.timer Config.motorTimer).PreloadsExclusive)
    (he : execPwmStart x c s = .next t) : (t.timer Config.motorTimer).PreloadsExclusive := by
  unfold execPwmStart at he
  repeat' split at he
  all_goals cases he
  · exact h
  · exact h.setCce _ _ _

theorem execPwmStop_preloads {x c : Sel} (h : (s.timer Config.motorTimer).PreloadsExclusive)
    (he : execPwmStop x c s = .next t) : (t.timer Config.motorTimer).PreloadsExclusive := by
  unfold execPwmStop at he
  repeat' split at he
  all_goals cases he
  · exact h
  · exact h.setCce _ _ _

theorem execMotorInit_preloads (h : (s.timer Config.motorTimer).PreloadsExclusive) (he : execMotorInit s = .next t) :
    (t.timer Config.motorTimer).PreloadsExclusive := by
  unfold execMotorInit at he
  split at he <;> cases he
  · exact h
  · exact h
  · exact h.configureTimer _ _
  · exact (((h.setCce _ .c1 true).setCce _ .c2 true).setCce _ .c3 true).setCce _ .c4 true
  · exact (h.writePair .one (.inl rfl)).writePair .two (.inl rfl)

theorem execMotorSetSpeed_preloads {id : Sel} (h : (s.timer Config.motorTimer).PreloadsExclusive)
    (he : execMotorSetSpeed id s = .next t) : (t.timer Config.motorTimer).PreloadsExclusive := by
  unfold execMotorSetSpeed at he
  repeat' split at he
  all_goals cases he
  · exact h
  · next a _ => exact h.writePair a (motorPulse_encodeSpeed_exclusive _ _ _)

theorem execMotorStop_preloads {id : Sel} (h : (s.timer Config.motorTimer).PreloadsExclusive)
    (he : execMotorStop id s = .next t) : (t.timer Config.motorTimer).PreloadsExclusive := by
  unfold execMotorStop at he
  repeat' split at he
  all_goals cases he
  · exact h
  · next a _ => exact h.writePair a (.inl rfl)

/-- Every command keeps the interlock in the preloads, but `PWM_SET_DUTY` on the motor timer (R290). -/
theorem exec_preloadsExclusive {i : Instr} (h : (s.timer Config.motorTimer).PreloadsExclusive)
    (hi : ∀ x c, i = .pwmSetDuty x c → timerOfSel x ≠ some Config.motorTimer) (he : exec i s = .next t) :
    (t.timer Config.motorTimer).PreloadsExclusive := by
  rcases (exec_shape he).timer_eq_or Config.motorTimer with ht | hw
  · rwa [ht]
  · cases i with
    | pwmInit x => exact execPwmInit_preloads h he
    | pwmSetDuty x c =>
      have hx : x.toNat = timerNum Config.motorTimer := by simpa [writesTimer] using hw
      exact absurd (timerOfSel_of_num hx) (hi x c rfl)
    | pwmStart x c => exact execPwmStart_preloads h he
    | pwmStop x c => exact execPwmStop_preloads h he
    | motorInit => exact execMotorInit_preloads h he
    | motorSetSpeed id => exact execMotorSetSpeed_preloads h he
    | motorStop id => exact execMotorStop_preloads h he
    | _ => simp [writesTimer, Config.motorTimer] at hw

/-! ## The interlock under every move -/

theorem Interlock.of_timer_eq (h : Interlock s) (ht : t.timer Config.motorTimer = s.timer Config.motorTimer) :
    Interlock t := by
  intro a
  rw [ht]
  exact h a

/-- A command keeps the interlock, in the preloads by its writes and in the active copies by what they take over. -/
theorem Interlock.exec (h : Interlock s) {i : Instr} {l : MicroStep} (hs : Standing i l s)
    (hi : ∀ x c, i = .pwmSetDuty x c → timerOfSel x ≠ some Config.motorTimer) (he : exec i s = .next t) :
    Interlock t := by
  obtain ⟨hpre, hact⟩ := (interlock_iff s).mp h
  exact (interlock_iff t).mpr
    ⟨exec_preloadsExclusive hpre hi he, (hs.activesKeptOrLoaded he _).activesExclusive hpre hact⟩

theorem Interlock.sequencerStep (h : Interlock s) (hB : BlockInv s) (hd : ¬ drivesMotorTimer s)
    (hs : s.sequencerStep = .next t) : Interlock t := by
  rcases State.sequencerStep_next hs with ⟨_, rfl⟩ | ⟨hm, i, hcmd, he⟩ | ⟨_, _, _, rfl⟩
  · exact h
  · obtain ⟨l, hstand⟩ := hB.standing hm hcmd
    refine h.exec hstand ?_ he
    rintro x c rfl hx
    exact hd ⟨hm, x, c, hcmd, hx⟩
  · exact h

/-- A tick keeps every preload, and its wrap loads both channels of a pair. -/
theorem Interlock.tickMove (h : Interlock s) (hB : BlockInv s) (j : TimerId) : Interlock (s.tickMove j) := by
  by_cases hj : Config.motorTimer = j ∧ (s.timer j).cen = true
  · obtain ⟨rfl, hcen⟩ := hj
    obtain ⟨hpre, hact⟩ := (interlock_iff s).mp h
    have ht : (s.tickMove Config.motorTimer).timer Config.motorTimer = (s.timer Config.motorTimer).tick := by
      simp [State.timer_tickMove, hcen]
    rw [interlock_iff, ht]
    exact ⟨hpre.of_eq (Timer.tick_ccrPre _), ((hB.timers _).tick_activesKeptOrLoaded hcen).activesExclusive hpre hact⟩
  · exact h.of_timer_eq (by rw [State.timer_tickMove, if_neg hj])

theorem Interlock.applyMove (h : Interlock s) (hB : BlockInv s) {m : Move}
    (hd : ¬ (m = .sequencer ∧ drivesMotorTimer s)) (hm : s.applyMove m = .next t) : Interlock t := by
  cases m with
  | host a => exact h.of_timer_eq (State.hostStep_timer hm _)
  | sequencer => exact h.sequencerStep hB (fun hdrives => hd ⟨rfl, hdrives⟩) hm
  | converter e => cases hm; exact h
  | tick j => cases hm; exact h.tickMove hB j
  | reset => cases hm; exact interlock_systemReset s

/-- Choosing the next move touches only the model's own fields (log entry 2). -/
theorem Interlock.nextMove (h : Interlock s) : Interlock s.nextMove.2 := by
  obtain ⟨ag, wc, hs⟩ := s.nextMove_snd
  rw [hs]
  exact h

theorem drivesMotorTimer_nextMove (s : State) : drivesMotorTimer s.nextMove.2 ↔ drivesMotorTimer s := by
  obtain ⟨ag, wc, hs⟩ := s.nextMove_snd
  rw [hs]
  rfl

end

/-- Settles O45: each agent's move keeps the interlock, the sequencer's by the writes of each command. -/
theorem motorInterlockIsKept : Obligations.MotorInterlockIsKept := by
  intro s t hB h hd hs
  rw [← drivesMotorTimer_nextMove] at hd
  exact h.nextMove.applyMove hB.nextMove hd (step_next hs).2

end Sys2Proof.Machine
end

section
/-! The arithmetic of the Motor Driver (R212, R218) and its commands (R211 to R215), each as the next state it gives. -/

namespace Sys2Proof.Machine

open Sys2Proof.Claims

/-! ## `MOTOR_INIT` (R211) -/

/-- Both compare writes of a pair in raw fields (R183, R217). -/
theorem State.writePair_eq_withCcr (s : State) (a : ActuatorId) (fwd rev : Nat) :
    s.writePair a fwd rev = withCcr (withCcr s .t1 (fwdChan a) fwd) .t1 (revChan a) rev := by
  simp only [State.writePair, State.writeCcr_eq_withCcr]
  rfl

/-- Settles O40: each micro-step by its arm, the configuration and the compare writes in raw fields. -/
theorem motorInitMicroSteps : Obligations.MotorInitMicroSteps := by
  intro s
  refine ⟨fun hs => ?_, fun hs => ?_, fun hs => ?_, fun hs => ?_, fun hs => ?_⟩ <;>
    simp only [exec, execMotorInit, hs]
  · rfl
  · rfl
  · rw [State.configureTimer, Timer.configure_eq_timerInitialised]
    rfl
  · rfl
  · rw [State.writePair_eq_withCcr, State.writePair_eq_withCcr]
    rfl

/-! ## The encoder and the compare value (R212, R218) -/

/-- The encoder on a speed inside its range, where nothing saturates. -/
theorem encodeSpeed_of_mem {db : Nat} {x : Int} (hlo : -100 ≤ x) (hhi : x ≤ 100) :
    encodeSpeed db x =
      if 0 ≤ x then (if x.natAbs ≤ db then 0 else x.natAbs, 0) else (0, if x.natAbs ≤ db then 0 else x.natAbs) := by
  rw [encodeSpeed, max_eq_left hlo, min_eq_left hhi]

theorem encodeSpeed_of_ge {db : Nat} {x : Int} (h : 100 ≤ x) : encodeSpeed db x = encodeSpeed db 100 := by
  rw [encodeSpeed, max_eq_left (by omega), min_eq_right h]
  rfl

theorem encodeSpeed_of_le {db : Nat} {x : Int} (h : x ≤ -100) : encodeSpeed db x = encodeSpeed db (-100) := by
  rw [encodeSpeed, max_eq_right h]
  rfl

/-- A speed from 0 to 100 drives forward. -/
theorem encodeSpeed_forward {db : Nat} {x : Int} (h0 : 0 ≤ x) (h1 : x ≤ 100) :
    encodeSpeed db x = (if x ≤ db then 0 else x.toNat, 0) := by
  obtain ⟨n, rfl⟩ := Int.eq_ofNat_of_zero_le h0
  rw [encodeSpeed_of_mem (by omega) h1, if_pos h0]
  simp

/-- A speed from -100 to 0 drives in reverse; at 0 both duties are 0. -/
theorem encodeSpeed_reverse {db : Nat} {x : Int} (h0 : -100 ≤ x) (h1 : x ≤ 0) :
    encodeSpeed db x = (0, if -x ≤ db then 0 else (-x).toNat) := by
  obtain ⟨n, hn⟩ := Int.eq_ofNat_of_zero_le (Int.neg_nonneg_of_nonpos h1)
  obtain rfl : x = -n := by omega
  rw [encodeSpeed_of_mem h0 (by omega)]
  split
  · obtain rfl : n = 0 := by omega
    simp
  · simp

@[simp] theorem encodeSpeed_zero (db : Nat) : encodeSpeed db 0 = (0, 0) := by
  rw [encodeSpeed_forward le_rfl (by norm_num)]
  simp

/-- Settles O42: the saturated speeds are the ends of the range, and the compare value is a rounded quotient. -/
theorem motorDutyLaw : Obligations.MotorDutyLaw := by
  refine ⟨fun db x => ⟨fun h => ?_, fun h => ?_, encodeSpeed_forward, encodeSpeed_reverse⟩, fun m _ => ?_,
    fun m arr => ?_⟩
  · rw [encodeSpeed_of_ge h, encodeSpeed_forward (by norm_num) le_rfl]
    norm_cast
  · rw [encodeSpeed_of_le h, encodeSpeed_reverse le_rfl (by norm_num), neg_neg]
    norm_cast
  · rw [motorPulse_eq]
    omega
  · rw [motorPulse_eq, Nat.mul_assoc 2 m]
    omega

/-! ## The pair of a motor (R217) -/

/-- A legal id names a motor, whose channels are the ones of its numbers. -/
theorem exists_actuatorOfSel {id : Sel} (h1 : 1 ≤ id.toNat) (h2 : id.toNat ≤ 2) :
    ∃ a, actuatorOfSel id = some a ∧ chanNum (fwdChan a) = 2 * id.toNat - 1 ∧ chanNum (revChan a) = 2 * id.toNat := by
  obtain hid | hid : id = 1#4 ∨ id = 2#4 := by bv_omega
  · exact ⟨.one, by subst hid; decide⟩
  · exact ⟨.two, by subst hid; decide⟩

theorem chanNum_injective : Function.Injective chanNum := by
  intro c d
  cases c <;> cases d <;> decide

/-! ## The commands on one motor (R213, R214) -/

section
variable {s : State} {id : Sel} {a : ActuatorId} {j : TimerId}

theorem State.checkActuator_ready (ha : actuatorOfSel id = some a) (hr : (s.timer j).ready = true) :
    s.checkActuator j id = .ok a := by
  simp only [State.checkActuator, ha, if_pos hr]

theorem State.checkActuator_notReady (ha : actuatorOfSel id = some a) (hr : (s.timer j).ready = false) :
    s.checkActuator j id = .error .notReady := by
  simp [State.checkActuator, ha, hr]

end

/-- Settles O41: the shared check, then both compare writes of the pair. -/
theorem motorSetSpeedResult : Obligations.MotorSetSpeedResult := by
  intro s id hs
  refine ⟨fun h => exec_of_selectorInvalid (i := .motorSetSpeed id) h hs, fun h1 h2 => ?_⟩
  obtain ⟨a, ha, hf, hv⟩ := exists_actuatorOfSel h1 h2
  refine ⟨fun hr => ?_, fun hr cf cr fwd rev hcf hcr henc => ?_⟩
  · simp only [exec, execMotorSetSpeed, hs, State.checkActuator_notReady (j := Config.motorTimer) ha hr]
    rfl
  · obtain rfl := chanNum_injective (hcf.trans hf.symm)
    obtain rfl := chanNum_injective (hcr.trans hv.symm)
    simp only [exec, execMotorSetSpeed, hs, State.checkActuator_ready (j := Config.motorTimer) ha hr, sint32, henc,
      State.writePair_eq_withCcr]
    rfl

/-- Settles O43: the shared check, then two writes of 0, which are what speed 0 encodes to. -/
theorem motorStopResult : Obligations.MotorStopResult := by
  intro s id hs
  refine ⟨fun h => exec_of_selectorInvalid (i := .motorStop id) h hs, fun h1 h2 => ?_, fun harg => ?_⟩
  · obtain ⟨a, ha, hf, hv⟩ := exists_actuatorOfSel h1 h2
    refine ⟨fun hr => ?_, fun hr cf cr hcf hcr => ?_⟩
    · simp only [exec, execMotorStop, hs, State.checkActuator_notReady (j := Config.motorTimer) ha hr]
      rfl
    · obtain rfl := chanNum_injective (hcf.trans hf.symm)
      obtain rfl := chanNum_injective (hcr.trans hv.symm)
      simp only [exec, execMotorStop, hs, State.checkActuator_ready (j := Config.motorTimer) ha hr,
        State.writePair_eq_withCcr]
      rfl
  · have hzero : sint32 0#32 = 0 := rfl
    simp only [exec, execMotorStop, execMotorSetSpeed, hs, harg, hzero, encodeSpeed_zero, motorPulse_zero]

/-! ## `MOTOR_SET_DEADBAND` (R215) -/

/-- Settles O44: the check against 100 decides, and the operand that passes it is the dead-band. -/
theorem motorSetDeadbandResult : Obligations.MotorSetDeadbandResult := by
  intro s hs
  refine ⟨fun h => ?_, fun h => ?_⟩ <;> simp only [exec, execMotorSetDeadband, hs]
  · exact if_pos h
  · rw [BitVec.ofNat_toNat]
    exact if_neg (Nat.not_lt.mpr h)

end Sys2Proof.Machine
end

section
/-! The Servo Driver: its commands (R231, R233), each as the next state it gives, and the angle-to-pulse scale (R232,
R234). -/

namespace Sys2Proof.Machine

open Sys2Proof.Claims

/-! ## `SERVO_INIT` (R231) -/

/-- The compare write of a servo in raw fields (R183, R230). -/
theorem State.writeServo_eq_withCcr (s : State) (a : ActuatorId) (angle : Word) :
    s.writeServo a angle = withCcr s .t2 (servoChan a) (servoPulse angle s.tim2.arrPre.toNat) :=
  s.writeCcr_eq_withCcr _ _ _

/-- Settles O46: each micro-step by its arm, the configuration and the compare writes in raw fields. -/
theorem servoInitMicroSteps : Obligations.ServoInitMicroSteps := by
  intro s
  refine ⟨fun hs => ?_, fun hs => ?_, fun hs => ?_, fun hs => ?_, fun hs => ?_⟩ <;>
    simp only [exec, execServoInit, hs]
  · rfl
  · rfl
  · rw [State.configureTimer, Timer.configure_eq_timerInitialised]
    rfl
  · rfl
  · rw [State.writeServo_eq_withCcr, State.writeServo_eq_withCcr]
    rfl

/-! ## `SERVO_SET_ANGLE` (R233) -/

/-- A servo's channel has the servo's number (R230). -/
theorem chanNum_servoChan {id : Sel} {a : ActuatorId} (h : actuatorOfSel id = some a) :
    chanNum (servoChan a) = id.toNat := by
  obtain ⟨rfl, rfl⟩ | ⟨rfl, rfl⟩ := actuatorOfSel_eq_some h
  · rfl
  · rfl

/-- Settles O47: the shared check, then one compare write on the servo's channel. -/
theorem servoSetAngleResult : Obligations.ServoSetAngleResult := by
  intro s id hs
  refine ⟨fun h => exec_of_selectorInvalid (i := .servoSetAngle id) h hs, fun h1 h2 => ?_⟩
  obtain ⟨a, ha, -, -⟩ := exists_actuatorOfSel h1 h2
  refine ⟨fun hr => ?_, fun hr c hc => ?_⟩
  · simp only [exec, execServoSetAngle, hs, State.checkActuator_notReady (j := Config.servoTimer) ha hr]
    rfl
  · obtain rfl := chanNum_injective (hc.trans (chanNum_servoChan ha).symm)
    simp only [exec, execServoSetAngle, hs, State.checkActuator_ready (j := Config.servoTimer) ha hr,
      State.writeServo_eq_withCcr]
    rfl

/-! ## The angle-to-pulse scale (R232, R234) -/

/-- On the 50 Hz carrier nine degrees are 100 counts, from 500 at 0 degrees. -/
theorem servoPulse_of_nine_mul {f : Word} {n : Nat} (hfin : expField f ≠ 0xFF#8) (hf : finiteValue f = 9 * (n : Rat))
    (hn : n ≤ 20) : servoPulse f 19999 = 500 + 100 * n := by
  have hle : (n : Rat) ≤ 20 := by exact_mod_cast hn
  have hangle : clampedOperand f 180 = 9 * (n : Rat) := by
    rw [clampedOperand_of_finite hfin, hf]
    exact clampRat_of_mem (by positivity) (by linarith)
  have hcounts : (5 / 2 + 9 * (n : Rat) / 180 * 10) * (((19999 : Nat) : Rat) + 1) / 100
      = ((500 + 100 * n : Nat) : Rat) := by
    push_cast
    ring
  rw [servoPulse, hangle, hcounts, rhu_natCast]

/-- Settles O48: `a` is the clamped operand, `rhu` rounds the exact product, and 0, 90 and 180 are multiples of nine. -/
theorem servoPulseLaw : Obligations.ServoPulseLaw := by
  refine ⟨fun f arr => ?_, servoPulse_of_nine_mul (n := 0) (by decide) (by simp) (by norm_num),
    servoPulse_of_nine_mul (n := 10) (by decide) (by decide +kernel) (by norm_num),
    servoPulse_of_nine_mul (n := 20) (by decide) (by decide +kernel) (by norm_num)⟩
  have ha := (clampedOperand_mem f (hi := 180) (by norm_num)).1
  have hround := rhu_spec (q := (5 / 2 + clampedOperand f 180 / 180 * 10) * ((arr : Rat) + 1) / 100) (by positivity)
  refine ⟨clampedOperand f 180, fun h => clampedOperand_of_isNaN h _, ?_, ?_, fun hfin => ?_, hround.1, hround.2,
    servoPulse_le f arr⟩
  · rintro rfl
    exact clampedOperand_negInf _
  · rintro rfl
    exact clampedOperand_posInf _
  · rw [clampedOperand_of_finite hfin]
    exact ⟨clampRat_of_nonpos (by norm_num), clampRat_of_ge, clampRat_of_mem⟩

end Sys2Proof.Machine
end

section
/-! How the block fails and what its moves never undo: a `CMD` write under each sequencer mode (R250, R251), the ends of
micro-step S1 (R259), and the enables that only a reset clears (R271). -/

namespace Sys2Proof.Machine

open Sys2Proof.Claims

/-! ## The `CMD` write (R250, R251) -/

theorem State.cmdWrite_idle {s : State} (w : Word) (hm : s.seq.mode = .idle) : s.cmdWrite w = s.accept w := by
  simp only [State.cmdWrite, hm]

theorem State.cmdWrite_run {s : State} (w : Word) (hm : s.seq.mode = .run) : s.cmdWrite w = s.drop := by
  simp only [State.cmdWrite, hm]

/-- Offset 0 of the window is `CMD` (R34). -/
theorem State.applyMove_writeCmd (s : State) (w : Word) :
    s.applyMove (.host (.write Config.aspaBase 4 w)) = .next (s.cmdWrite w) :=
  s.applyMove_writeWord (off := 0) w (by decide) rfl

/-- Settles O10: an idle sequencer accepts the word, a running one drops it. -/
theorem cmdWriteIsAcceptedOrDropped : Obligations.CmdWriteIsAcceptedOrDropped := by
  intro s w
  rw [State.applyMove_writeCmd]
  refine ⟨fun hm => ?_, fun hm => ?_⟩
  · rw [State.cmdWrite_idle w hm]
    rfl
  · rw [State.cmdWrite_run w hm]
    rfl

/-! ## The errors of the checks in S1 (R257, R259) -/

/-- The errors that a command's own checks raise; the other two are the wait's and the decoder's. -/
inductive ErrorCode.OfCheck : ErrorCode → Prop
  | invalidArgument : OfCheck .invalidArgument
  | configurationError : OfCheck .configurationError
  | notReady : OfCheck .notReady

theorem ErrorCode.OfCheck.code {e : ErrorCode} (h : e.OfCheck) : e.code = 1#4 ∨ e.code = 2#4 ∨ e.code = 5#4 := by
  cases h with
  | invalidArgument => exact .inl rfl
  | configurationError => exact .inr (.inl rfl)
  | notReady => exact .inr (.inr rfl)

theorem periodOf_error {bits f : Nat} {e : ErrorCode} (h : periodOf bits f = .error e) : e.OfCheck := by
  rw [periodOf_eq] at h
  split_ifs at h <;> cases h
  · exact .invalidArgument
  · exact .configurationError

theorem State.checkChannel_error {s : State} {t c : Sel} {e : ErrorCode} (h : s.checkChannel t c = .error e) :
    e.OfCheck := by
  unfold State.checkChannel at h
  repeat' split at h
  all_goals cases h
  · exact .invalidArgument
  · exact .invalidArgument
  · exact .notReady

theorem State.checkActuator_error {s : State} {t : TimerId} {id : Sel} {e : ErrorCode}
    (h : s.checkActuator t id = .error e) : e.OfCheck := by
  unfold State.checkActuator at h
  repeat' split at h
  all_goals cases h
  · exact .invalidArgument
  · exact .notReady

/-! ## The ends of S1 -/

/-- What micro-step S1 taken in `s` with the answer `t` does to its command. -/
inductive FirstStepEnd (s t : State) : Prop
  /-- The command goes on to another micro-step. -/
  | goesOn : t.seq.mode = s.seq.mode → FirstStepEnd s t
  /-- The command completes (R252). -/
  | completes : t.status.lastErr = 0#4 → FirstStepEnd s t
  /-- A check rejects the command, which does nothing but `raise` (R253, R259). -/
  | rejected {e : ErrorCode} : e.OfCheck → t = s.raise e → FirstStepEnd s t

/-- Everything S1 of a command can do: it goes on, it completes, or one of its own checks rejects it. -/
theorem exec_firstStepEnd {i : Instr} {s t : State} (hs : s.seq.step = some .s1) (h : exec i s = .next t) :
    FirstStepEnd s t := by
  cases i with
  | adcInit | motorInit | servoInit =>
    simp only [exec, execAdcInit, execMotorInit, execServoInit, hs] at h
    cases h
    exact .goesOn rfl
  | adcSample ch =>
    simp only [exec, execAdcSample, hs] at h
    split_ifs at h <;> cases h
    · exact .rejected .invalidArgument rfl
    · exact .rejected .notReady rfl
    · exact .goesOn rfl
  | adcAvg ch n =>
    simp only [exec, execAdcAvg, hs] at h
    split_ifs at h <;> cases h
    · exact .rejected .invalidArgument rfl
    · exact .rejected .invalidArgument rfl
    · exact .rejected .notReady rfl
    · exact .goesOn rfl
  | adcToVolt | motorSetDeadband =>
    simp only [exec, execAdcToVolt, execMotorSetDeadband, hs] at h
    split_ifs at h <;> cases h
    · exact .rejected .invalidArgument rfl
    · exact .completes rfl
  | adcSetTimeout =>
    simp only [exec, execAdcSetTimeout, hs] at h
    cases h
    exact .completes rfl
  | pwmInit x =>
    simp only [exec, execPwmInit, hs] at h
    repeat' split at h
    all_goals cases h
    · exact .rejected .invalidArgument rfl
    · next hp => exact .rejected (periodOf_error hp) rfl
    · exact .goesOn rfl
  | pwmSetDuty x c | pwmStart x c | pwmStop x c =>
    simp only [exec, execPwmSetDuty, execPwmStart, execPwmStop, hs] at h
    split at h <;> cases h
    · next hc => exact .rejected (State.checkChannel_error hc) rfl
    · exact .completes rfl
  | motorSetSpeed id | motorStop id | servoSetAngle id =>
    simp only [exec, execMotorSetSpeed, execMotorStop, execServoSetAngle, hs] at h
    split at h <;> cases h
    · next ha => exact .rejected (State.checkActuator_error ha) rfl
    · exact .completes rfl

/-- Settles O53: an S1 that neither goes on nor completes is a check's `raise`, the completion state of its code. -/
theorem failureInS1ChangesNothingElse : Obligations.FailureInS1ChangesNothingElse := by
  intro i s t hrun hs h hidle herr
  cases exec_firstStepEnd hs h with
  | goesOn hm =>
    rw [hidle, hrun] at hm
    cases hm
  | completes h0 => exact absurd h0 herr
  | rejected he ht => exact ⟨_, he.code, ht⟩

/-! ## `CEN` and `READY` of a timer (R180, R271) -/

/-- The timer `y` still counts if `x` does, and is still ready if `x` is. -/
structure Timer.StaysOn (x y : Timer) : Prop where
  cen   : x.cen = true → y.cen = true
  ready : x.ready = true → y.ready = true

theorem Timer.StaysOn.of_eq {x y : Timer} (hc : y.cen = x.cen) (hr : y.ready = x.ready) : x.StaysOn y :=
  ⟨fun h => hc.trans h, fun h => hr.trans h⟩

theorem Timer.StaysOn.refl (x : Timer) : x.StaysOn x := .of_eq rfl rfl

theorem Timer.StaysOn.trans {x y z : Timer} (h : x.StaysOn y) (h' : y.StaysOn z) : x.StaysOn z :=
  ⟨fun hc => h'.cen (h.cen hc), fun hr => h'.ready (h.ready hr)⟩

/-- The configuration sets both. -/
theorem Timer.StaysOn.configure (x : Timer) (p : BitVec 16) (a : BitVec 32) : x.StaysOn (x.configure p a) :=
  ⟨fun _ => Timer.configure_cen x p a, fun _ => Timer.configure_ready x p a⟩

theorem TimerWrites.staysOn {bits psc : Nat} {x y : Timer} (h : TimerWrites bits psc x y) : x.StaysOn y := by
  induction h with
  | refl => exact .refl x
  | configure _ => exact .configure x _ _
  | setCce c b _ _ ih => exact ih.trans (.of_eq (Timer.setCce_cen _ c b) (Timer.setCce_ready _ c b))
  | writeCcr c _ _ _ ih => exact ih.trans (.of_eq (Timer.writeCcr_cen _ c _) (Timer.writeCcr_ready _ c _))

@[simp] theorem State.writeCcr_cen (s : State) (t i : TimerId) (c : ChanId) (v : Nat) :
    ((s.writeCcr t c v).timer i).cen = (s.timer i).cen := by
  rw [State.timer_writeCcr]
  split
  · next hi => rw [hi, Timer.writeCcr_cen]
  · rfl

@[simp] theorem State.setCce_cen (s : State) (t i : TimerId) (c : ChanId) (b : Bool) :
    ((s.setCce t c b).timer i).cen = (s.timer i).cen := by
  rw [State.timer_setCce]
  split
  · next hi => rw [hi, Timer.setCce_cen]
  · rfl

theorem State.configureTimer_staysOn (s : State) (t i : TimerId) (p : Nat) :
    (s.timer i).StaysOn ((s.configureTimer t p).timer i) := by
  rw [State.timer_configureTimer]
  split
  · next hi => rw [hi]; exact .configure _ _ _
  · exact .refl _

/-! ### The commands that configure a timer, wherever they stand -/

theorem execPwmInit_staysOn {x : Sel} {s t : State} (h : execPwmInit x s = .next t) (j : TimerId) :
    (s.timer j).StaysOn (t.timer j) := by
  unfold execPwmInit at h
  repeat' split at h
  all_goals cases h
  · exact .refl _
  · exact .refl _
  · exact .refl _
  · exact s.configureTimer_staysOn _ j _

theorem execMotorInit_staysOn {s t : State} (h : execMotorInit s = .next t) (j : TimerId) :
    (s.timer j).StaysOn (t.timer j) := by
  unfold execMotorInit at h
  split at h <;> cases h
  · exact .refl _
  · exact .refl _
  · exact s.configureTimer_staysOn _ j _
  · exact .of_eq (by simp) (by simp)
  · exact .of_eq (by simp [State.writePair]) (by simp)

theorem execServoInit_staysOn {s t : State} (h : execServoInit s = .next t) (j : TimerId) :
    (s.timer j).StaysOn (t.timer j) := by
  unfold execServoInit at h
  split at h <;> cases h
  · exact .refl _
  · exact .refl _
  · exact s.configureTimer_staysOn _ j _
  · exact .of_eq (by simp) (by simp)
  · exact .of_eq (by simp [State.writeServo]) (by simp)

/-- No micro-step stops a timer or makes it not ready: the commands that do not configure one write a ready timer's
channels at most. -/
theorem exec_timer_staysOn {i : Instr} {s t : State} (h : exec i s = .next t) (j : TimerId) :
    (s.timer j).StaysOn (t.timer j) := by
  cases i with
  | pwmInit x => exact execPwmInit_staysOn h j
  | motorInit => exact execMotorInit_staysOn h j
  | servoInit => exact execServoInit_staysOn h j
  | pwmSetDuty x c => exact (execPwmSetDuty_timersWritten h j).staysOn
  | pwmStart x c => exact (execPwmStart_timersWritten h j).staysOn
  | pwmStop x c => exact (execPwmStop_timersWritten h j).staysOn
  | motorSetSpeed id => exact (execMotorSetSpeed_timersWritten h j).staysOn
  | motorStop id => exact (execMotorStop_timersWritten h j).staysOn
  | servoSetAngle id => exact (execServoSetAngle_timersWritten h j).staysOn
  | _ => exact (TimersWritten.of_not_writesTimer h (by simp [writesTimer]) j).staysOn

/-! ## `ADC.ADON` (R132, R271) -/

theorem State.poll_adon {s o : State} (c : Bool) (hs : s.adc.adon = true) (ho : o.adc.adon = true) :
    (s.poll c o).adc.adon = true := by
  rcases s.poll_cases c o with ⟨_, h⟩ | ⟨_, _, h⟩ | ⟨_, _, _, h⟩ | ⟨_, _, _, h⟩ <;> rw [h]
  · exact ho
  · exact hs
  · exact hs
  · exact hs

theorem execAdcInit_adon {s t : State} (h : execAdcInit s = .next t) (hon : s.adc.adon = true) :
    t.adc.adon = true := by
  unfold execAdcInit at h
  split at h <;> cases h
  · exact hon
  · exact hon
  · exact hon
  · rfl
  · exact hon
  · exact hon
  · exact State.poll_adon _ hon hon
  · exact hon
  · exact State.poll_adon _ hon hon
  · exact hon

theorem execAdcSample_adon {ch : Sel} {s t : State} (h : execAdcSample ch s = .next t) (hon : s.adc.adon = true) :
    t.adc.adon = true := by
  unfold execAdcSample at h
  repeat' split at h
  all_goals cases h
  · exact hon
  · exact hon
  · exact hon
  · exact hon
  · exact State.poll_adon _ hon hon
  · exact hon

theorem execAdcAvg_adon {ch : Sel} {n : Byte} {s t : State} (h : execAdcAvg ch n s = .next t)
    (hon : s.adc.adon = true) : t.adc.adon = true := by
  unfold execAdcAvg at h
  repeat' split at h
  all_goals cases h
  · exact hon
  · exact hon
  · exact hon
  · exact hon
  · exact hon
  · exact hon
  · exact State.poll_adon _ hon hon
  · exact hon

/-- No micro-step disables the converter: the commands that do not wait leave the ADC alone. -/
theorem exec_adon {i : Instr} {s t : State} (h : exec i s = .next t) (hon : s.adc.adon = true) :
    t.adc.adon = true := by
  cases i with
  | adcInit => exact execAdcInit_adon h hon
  | adcSample ch => exact execAdcSample_adon h hon
  | adcAvg ch n => exact execAdcAvg_adon h hon
  | _ => rwa [((exec_shape h).adc_polls_eq_or.resolve_right (by simp [waits])).1]

/-! ## Every move -/

theorem State.hostStep_adc {s t : State} {a : HostAccess} (h : s.hostStep a = .next t) : t.adc = s.adc := by
  rcases State.hostStep_next h with rfl | ⟨v, rfl⟩ | ⟨w, r, rfl⟩
  · rfl
  · rfl
  · rcases s.writeReg_cases w r with ⟨_, h⟩ | ⟨_, h⟩ | h | h | h <;> rw [h] <;> rfl

theorem State.sequencerStep_staysOn {s t : State} (h : s.sequencerStep = .next t) :
    (s.adc.adon = true → t.adc.adon = true) ∧ ∀ j, (s.timer j).StaysOn (t.timer j) := by
  rcases State.sequencerStep_next h with ⟨_, rfl⟩ | ⟨_, i, _, he⟩ | ⟨_, _, _, rfl⟩
  · exact ⟨id, fun _ => .refl _⟩
  · exact ⟨exec_adon he, exec_timer_staysOn he⟩
  · exact ⟨id, fun _ => .refl _⟩

theorem State.tickMove_staysOn (s : State) (i j : TimerId) : (s.timer j).StaysOn ((s.tickMove i).timer j) := by
  rw [State.timer_tickMove]
  split
  · next hj => rw [hj.1]; exact .of_eq (Timer.tick_cen _) (Timer.tick_ready _)
  · exact .refl _

/-- Every move but the reset leaves the converter enabled and each timer on. -/
theorem State.applyMove_staysOn {s t : State} {m : Move} (h : s.applyMove m = .next t) (hr : m ≠ .reset) :
    (s.adc.adon = true → t.adc.adon = true) ∧ ∀ j, (s.timer j).StaysOn (t.timer j) := by
  cases m with
  | host a =>
    refine ⟨fun hon => by rwa [State.hostStep_adc h], fun j => ?_⟩
    rw [State.hostStep_timer h j]
    exact .refl _
  | sequencer => exact State.sequencerStep_staysOn h
  | converter e =>
    cases h
    exact ⟨fun hon => (AdcKept.converterStep s.adc e).adon.trans hon, fun _ => .refl _⟩
  | tick i =>
    cases h
    exact ⟨fun hon => by rwa [State.tickMove_adc], s.tickMove_staysOn i⟩
  | reset => exact absurd rfl hr

/-- Settles O56: no move but the reset clears `ADON`, a `CEN` or a `READY`. -/
theorem onlyResetStopsAUnit : Obligations.OnlyResetStopsAUnit := by
  intro s t m h hr
  obtain ⟨hadc, htimers⟩ := State.applyMove_staysOn h hr
  exact ⟨hadc, fun j => ⟨(htimers j).cen, (htimers j).ready⟩⟩

end Sys2Proof.Machine
end

section
/-! The reset (R280, R281): its values, the registers after it, the moves it leaves disabled, and the invariant. -/

namespace Sys2Proof.Machine

open Sys2Proof.Claims

/-! ## The reset state -/

theorem State.timer_reset (t : TimerId) : State.reset.timer t = Timer.reset := by cases t <;> rfl

theorem Timer.ch_reset (c : ChanId) : Timer.reset.ch c = Channel.reset := by cases c <;> rfl

theorem State.systemReset_reset : State.reset.systemReset = State.reset := rfl

/-- A reset puts the block's state at its values whatever the state before it (R280). -/
theorem atReset_systemReset (s : State) : AtReset s.systemReset where
  arg := rfl
  status := rfl
  result := rfl
  errCmd := rfl
  timeout := rfl
  deadband := rfl
  seq := rfl
  adc := rfl
  timers := State.timer_reset
  pinLog := rfl

/-! ## The registers after a reset -/

theorem statusView_systemReset (s : State) : s.systemReset.statusView = 0#32 :=
  (by decide : State.reset.statusView = 0#32)

theorem Timer.ctrlView_reset : Timer.reset.ctrlView = 0#32 := by decide

/-- Every host-visible register reads 0 after a reset (R280). -/
theorem readReg_systemReset (s : State) (r : Reg) : s.systemReset.readReg r = 0#32 := by
  have htimer (t : TimerId) : s.systemReset.timer t = Timer.reset := State.timer_reset t
  cases r with
  | status => exact statusView_systemReset s
  | adcCtrl => exact (by decide : Adc.reset.ctrlView = 0#32)
  | timCtrl t => exact (congrArg Timer.ctrlView (htimer t)).trans Timer.ctrlView_reset
  | timPsc t => exact congrArg (fun x => x.pscPre.setWidth 32) (htimer t)
  | timArr t => exact congrArg Timer.arrPre (htimer t)
  | timCnt t => exact congrArg Timer.cnt (htimer t)
  | timCcr t c => simp only [State.readReg, htimer, Timer.ch_reset]; rfl
  | _ => rfl

/-- Settles O1: the reset move puts the values of the table, and every word slot is a register that reads 0. -/
theorem resetPutsEveryFieldAtItsValue : Obligations.ResetPutsEveryFieldAtItsValue := by
  refine ⟨atReset_systemReset State.reset, fun s => ⟨s.systemReset, rfl, atReset_systemReset s, fun off h ha => ?_⟩⟩
  rw [State.memRead_word _ h ha, readReg_systemReset]

/-! ## The moves after a reset -/

/-- Settles O2: a disabled channel drives its line low, and the units that a reset stops have no enabled step. -/
theorem afterResetOnlyTheHostActs : Obligations.AfterResetOnlyTheHostActs := by
  have hcen (t : TimerId) : (State.reset.timer t).cen = false := congrArg Timer.cen (State.timer_reset t)
  obtain ⟨hsequencer, htick, hconverter, _⟩ := disabledMovesChangeNothing State.reset
  refine ⟨fun t c => ?_, hcen, rfl, rfl, fun m hm => ?_⟩
  · rw [State.timer_reset, Timer.out, Timer.ch_reset]
    rfl
  · cases m with
    | host a => cases hm
    | sequencer => exact hsequencer rfl
    | converter e => exact hconverter rfl e
    | tick t => exact htick t (hcen t)
    | reset => exact congrArg Host.Outcome.next State.systemReset_reset

/-- Settles O49: the reset state is what a reset makes of itself, and a reset meets both. -/
theorem resetMeetsTheInvariant : Obligations.ResetMeetsTheInvariant :=
  ⟨.systemReset (s := State.reset) paramsValid_default, interlock_systemReset State.reset⟩

end Sys2Proof.Machine
end

section
/-! A host access under a running command (R286): it changes the operand register, the sticky bits and the model's
read data, and nothing else. -/

namespace Sys2Proof.Machine

/-- Everything a host access can change while a command runs. -/
theorem State.hostStep_run {s t : State} {a : HostAccess} (hm : s.seq.mode = .run) (h : s.hostStep a = .next t) :
    ∃ arg st rdata, t = { s with arg := arg, status := st, hostRdata := rdata } ∧ st.done = s.status.done
      ∧ st.lastErr = s.status.lastErr := by
  rcases State.hostStep_next h with rfl | ⟨v, rfl⟩ | ⟨w, r, rfl⟩
  · exact ⟨_, _, _, rfl, rfl, rfl⟩
  · exact ⟨_, _, v, rfl, rfl, rfl⟩
  · rcases s.writeReg_cases w r with ⟨hi, _⟩ | ⟨_, hw⟩ | hw | hw | hw
    · exact absurd (hm.symm.trans hi) nofun
    · exact ⟨_, s.status.dropped, _, hw, rfl, rfl⟩
    · exact ⟨w, _, _, hw, rfl, rfl⟩
    · exact ⟨_, s.status.hostWrite w, _, hw, rfl, rfl⟩
    · exact ⟨_, _, _, hw, rfl, rfl⟩

/-- Settles O18: a running command's units, results and completion state are none of what a host access changes. -/
theorem hostCannotDisturbARunningCommand : Obligations.HostCannotDisturbARunningCommand := by
  intro s t a hm h
  obtain ⟨arg, st, rdata, rfl, hdone, herr⟩ := State.hostStep_run hm h
  exact ⟨rfl, rfl, fun i => by cases i <;> rfl, rfl, rfl, rfl, rfl, rfl, hdone, herr⟩

end Sys2Proof.Machine
end

section
/-! How far a running command is from its end (R291): the micro-steps it has still to take, counted in the sequencer
alone, which every sequencer step lowers but a failed poll. From this the five micro-steps of a command that does not
wait. -/

namespace Sys2Proof.Machine

open Sys2Proof.Claims

/-! ## The micro-steps left -/

/-- The most sequencer steps `ADC_INIT` takes from a micro-step on, when a wait can fail `w` polls and the wait at that
micro-step can fail `r` more of them (R132). -/
def adcInitStepsLeft (w r : Nat) : MicroStep → Nat
  | .s1 => 2 * w + 10
  | .s2 => 2 * w + 9
  | .s3 => 2 * w + 8
  | .s4 => 2 * w + 7
  | .s5 => 2 * w + 6
  | .s6 => 2 * w + 5
  | .s7 => r + w + 4
  | .s8 => w + 3
  | .s9 => r + 2
  | .s10 => 1

/-- The same of `ADC_SAMPLE` (R138). -/
def adcSampleStepsLeft (w r : Nat) : MicroStep → Nat
  | .s1 => w + 4
  | .s2 => w + 3
  | .s3 => r + 2
  | _ => 1

/-- The same of `ADC_AVG` with `n` samples to take and `k` of them taken (R139). -/
def adcAvgStepsLeft (w r n k : Nat) : MicroStep → Nat
  | .s1 => n * (w + 2) + 3
  | .s2 => n * (w + 2) + 2
  | .s3 => (n - k) * (w + 2) + 1
  | .s4 => (n - (k + 1)) * (w + 2) + r + 2
  | _ => 1

/-- The same of the commands that do not wait, none of which has a micro-step past S5 (R180, R211, R231). -/
def straightStepsLeft : MicroStep → Nat
  | .s1 => 5
  | .s2 => 4
  | .s3 => 3
  | .s4 => 2
  | _ => 1

/-- The most sequencer steps a command takes from a micro-step on, when `SEQ.K` is `k`. -/
def microStepsLeft (w r k : Nat) : Instr → MicroStep → Nat
  | .adcInit, l => adcInitStepsLeft w r l
  | .adcSample _, l => adcSampleStepsLeft w r l
  | .adcAvg _ n, l => adcAvgStepsLeft w r n.toNat k l
  | _, l => straightStepsLeft l

/-- The sequencer steps left to a sequencer state: none while idle, and the one rejection of an illegal word. -/
def Seq.stepsLeft (q : Seq) (w r : Nat) : Nat :=
  match q.mode with
  | .idle => 0
  | .run =>
    match decode q.cmd, q.step with
    | .ok i, some l => microStepsLeft w r q.k.toNat i l
    | _, _ => 1

theorem Seq.stepsLeft_idle {q : Seq} (hm : q.mode = .idle) (w r : Nat) : q.stepsLeft w r = 0 := by
  simp [Seq.stepsLeft, hm]

theorem Seq.stepsLeft_run {q : Seq} {i : Instr} {l : MicroStep} (hm : q.mode = .run) (hd : decode q.cmd = .ok i)
    (hs : q.step = some l) (w r : Nat) : q.stepsLeft w r = microStepsLeft w r q.k.toNat i l := by
  simp [Seq.stepsLeft, hm, hd, hs]

theorem microStepsLeft_of_not_waits {i : Instr} (hi : waits i = false) (w r k : Nat) (l : MicroStep) :
    microStepsLeft w r k i l = straightStepsLeft l := by
  cases i with
  | adcInit | adcSample | adcAvg => cases hi
  | _ => rfl

theorem straightStepsLeft_bounds (l : MicroStep) : 0 < straightStepsLeft l ∧ straightStepsLeft l ≤ 5 := by
  cases l <;> decide

theorem microStepsLeft_pos (w r k : Nat) (i : Instr) (l : MicroStep) : 0 < microStepsLeft w r k i l := by
  cases i with
  | adcInit => cases l <;> exact Nat.succ_pos _
  | adcSample ch => cases l <;> exact Nat.succ_pos _
  | adcAvg ch n => cases l <;> exact Nat.succ_pos _
  | _ => exact (straightStepsLeft_bounds l).1

theorem Seq.stepsLeft_pos {q : Seq} (hm : q.mode = .run) (w r : Nat) : 0 < q.stepsLeft w r := by
  simp only [Seq.stepsLeft, hm]
  split
  · exact microStepsLeft_pos _ _ _ _ _
  · exact Nat.one_pos

/-! ## A micro-step that is no failed poll brings the end nearer -/

/-- `t` is nearer to the end of the command than `s`, whatever the budget of its waits. -/
def Advances (s t : State) : Prop := ∀ w r r', r' ≤ w → t.seq.stepsLeft w r' < s.seq.stepsLeft w r

theorem advances_of_idle {s t : State} (hm : s.seq.mode = .run) (ht : t.seq.mode = .idle) : Advances s t :=
  fun w r r' _ => by
    rw [Seq.stepsLeft_idle ht]
    exact Seq.stepsLeft_pos hm w r

section
variable {i : Instr} {l : MicroStep} {s t u : State}

/-- A command that goes on to `l'` advances when the count at `l'` is below the count at `l`. -/
theorem Standing.advances_goto (h : Standing i l s) (l' : MicroStep) (hm : u.seq.mode = s.seq.mode)
    (hc : u.seq.cmd = s.seq.cmd)
    (hlt : ∀ w r r', r' ≤ w → microStepsLeft w r' u.seq.k.toNat i l' < microStepsLeft w r s.seq.k.toNat i l) :
    Advances s (u.goto l') := fun w r r' hr => by
  rw [Seq.stepsLeft_run h.mode h.cmd h.step,
    Seq.stepsLeft_run (q := (u.goto l').seq) (hm.trans h.mode) ((congrArg decode hc).trans h.cmd) rfl]
  exact hlt w r r' hr

theorem Standing.adcInit_advances (h : Standing .adcInit l s) (hw : ¬ Waiting s .adcInit l)
    (he : execAdcInit s = .next t) : Advances s t := by
  unfold execAdcInit at he
  split at he <;> cases he
  all_goals obtain rfl := h.label_eq ‹_›
  -- S7 and S9 wait, S10 completes, the others go on at once (R132).
  case h_7 =>
    have hdone : s.adc.rstcal = false := by simpa [Waiting, h.mode, h.cmd, h.step] using hw
    rw [State.poll_eq, hdone]
    exact h.advances_goto .s8 rfl rfl fun w r r' hr => by simp only [microStepsLeft, adcInitStepsLeft]; omega
  case h_9 =>
    have hdone : s.adc.cal = false := by simpa [Waiting, h.mode, h.cmd, h.step] using hw
    rw [State.poll_eq, hdone]
    exact h.advances_goto .s10 rfl rfl fun w r r' hr => by simp only [microStepsLeft, adcInitStepsLeft]; omega
  case h_10 => exact advances_of_idle h.mode rfl
  all_goals
    exact h.advances_goto _ rfl rfl fun w r r' hr => by simp only [microStepsLeft, adcInitStepsLeft]; omega

theorem Standing.adcSample_advances {ch : Sel} (h : Standing (.adcSample ch) l s)
    (hw : ¬ Waiting s (.adcSample ch) l) (he : execAdcSample ch s = .next t) : Advances s t := by
  unfold execAdcSample at he
  repeat' split at he
  all_goals cases he
  all_goals obtain rfl := h.label_eq ‹_›
  · exact advances_of_idle h.mode rfl
  · exact advances_of_idle h.mode rfl
  · exact h.advances_goto .s2 rfl rfl fun w r r' hr => by simp only [microStepsLeft, adcSampleStepsLeft]; omega
  · exact h.advances_goto .s3 rfl rfl fun w r r' hr => by simp only [microStepsLeft, adcSampleStepsLeft]; omega
  · have hdone : s.adc.eoc = true := by simpa [Waiting, h.mode, h.cmd, h.step] using hw
    rw [State.poll_eq, hdone]
    exact h.advances_goto .s4 rfl rfl fun w r r' hr => by simp only [microStepsLeft, adcSampleStepsLeft]; omega
  · exact advances_of_idle h.mode rfl

theorem Standing.adcAvg_advances {ch : Sel} {n : Byte} (h : Standing (.adcAvg ch n) l s)
    (hw : ¬ Waiting s (.adcAvg ch n) l) (he : execAdcAvg ch n s = .next t) : Advances s t := by
  obtain ⟨_, hcount, _⟩ := h.inv
  unfold execAdcAvg at he
  repeat' split at he
  all_goals cases he
  all_goals obtain rfl := h.label_eq ‹_›
  · exact advances_of_idle h.mode rfl
  · exact advances_of_idle h.mode rfl
  · exact advances_of_idle h.mode rfl
  · exact h.advances_goto .s2 rfl rfl fun w r r' hr => by simp only [microStepsLeft, adcAvgStepsLeft]; omega
  · exact h.advances_goto .s3 rfl rfl fun w r r' hr => by simp [microStepsLeft, adcAvgStepsLeft]
  · refine h.advances_goto .s4 rfl rfl fun w r r' hr => ?_
    obtain ⟨m, hm⟩ : ∃ m, n.toNat - s.seq.k.toNat = m + 1 :=
      Nat.exists_eq_succ_of_ne_zero (Nat.sub_ne_zero_of_lt (hcount (by decide)).1)
    simp only [microStepsLeft, adcAvgStepsLeft, State.startConversion_seq, Nat.sub_add_eq, hm, Nat.add_sub_cancel,
      Nat.succ_mul]
    omega
  · have hdone : s.adc.eoc = true := by simpa [Waiting, h.mode, h.cmd, h.step] using hw
    rw [State.poll_eq, hdone]
    refine h.advances_goto _ rfl rfl fun w r r' hr => ?_
    have hk : (s.seq.k + 1).toNat = s.seq.k.toNat + 1 := by
      have hlt := (hcount (by decide)).1
      bv_omega
    show microStepsLeft w r' (s.seq.k + 1).toNat _ _ < _
    rw [hk]
    split <;> simp only [microStepsLeft, adcAvgStepsLeft] <;> omega
  · exact advances_of_idle h.mode rfl

theorem Standing.pwmInit_advances {x : Sel} (h : Standing (.pwmInit x) l s) (he : execPwmInit x s = .next t) :
    Advances s t := by
  unfold execPwmInit at he
  repeat' split at he
  all_goals cases he
  all_goals obtain rfl := h.label_eq ‹_›
  · exact advances_of_idle h.mode rfl
  · exact advances_of_idle h.mode rfl
  · exact h.advances_goto .s2 rfl rfl fun _ _ _ _ => (by decide : 4 < 5)
  · exact advances_of_idle h.mode rfl

theorem Standing.motorInit_advances (h : Standing .motorInit l s) (he : execMotorInit s = .next t) :
    Advances s t := by
  unfold execMotorInit at he
  split at he <;> cases he
  all_goals obtain rfl := h.label_eq ‹_›
  · exact h.advances_goto .s2 rfl rfl fun _ _ _ _ => (by decide : 4 < 5)
  · exact h.advances_goto .s3 rfl rfl fun _ _ _ _ => (by decide : 3 < 4)
  · exact h.advances_goto .s4 rfl rfl fun _ _ _ _ => (by decide : 2 < 3)
  · exact h.advances_goto .s5 rfl rfl fun _ _ _ _ => (by decide : 1 < 2)
  · exact advances_of_idle h.mode rfl

theorem Standing.servoInit_advances (h : Standing .servoInit l s) (he : execServoInit s = .next t) :
    Advances s t := by
  unfold execServoInit at he
  split at he <;> cases he
  all_goals obtain rfl := h.label_eq ‹_›
  · exact h.advances_goto .s2 rfl rfl fun _ _ _ _ => (by decide : 4 < 5)
  · exact h.advances_goto .s3 rfl rfl fun _ _ _ _ => (by decide : 3 < 4)
  · exact h.advances_goto .s4 rfl rfl fun _ _ _ _ => (by decide : 2 < 3)
  · exact h.advances_goto .s5 rfl rfl fun _ _ _ _ => (by decide : 1 < 2)
  · exact advances_of_idle h.mode rfl

/-- A micro-step that is no failed poll advances its command (R16, R137). -/
theorem Standing.advances (h : Standing i l s) (hw : ¬ Waiting s i l) (he : exec i s = .next t) : Advances s t := by
  cases i with
  | adcInit => exact h.adcInit_advances hw he
  | adcSample ch => exact h.adcSample_advances hw he
  | adcAvg ch n => exact h.adcAvg_advances hw he
  | pwmInit x => exact h.pwmInit_advances he
  | motorInit => exact h.motorInit_advances he
  | servoInit => exact h.servoInit_advances he
  | _ => exact advances_of_idle h.mode (exec_ends_of_oneStep rfl he)

/-- Some wait of the running command fails its polls. -/
def Stalled (s : State) : Prop := ∃ i l, Waiting s i l

theorem waits_of_waiting (h : Waiting s i l) : waits i = true := by
  obtain ⟨_, _, _, ⟨rfl, _⟩ | ⟨rfl, _⟩ | ⟨_, rfl, _⟩ | ⟨_, _, rfl, _⟩⟩ := h <;> rfl

/-- A sequencer step of a running command is a failed poll or advances it. -/
theorem BlockInv.sequencerStep_advances (hB : BlockInv s) (hm : s.seq.mode = .run) (h : s.sequencerStep = .next t) :
    (Stalled s ∧ t = pollFailed s) ∨ Advances s t := by
  rcases State.sequencerStep_next h with ⟨hi, _⟩ | ⟨_, i, hd, he⟩ | ⟨_, _, _, rfl⟩
  · exact absurd (hm.symm.trans hi) nofun
  · obtain ⟨l, hl⟩ := hB.standing hm hd
    by_cases hw : Waiting s i l
    · exact .inl ⟨⟨i, l, hw⟩, Host.Outcome.next.inj (h.symm.trans hw.sequencerStep)⟩
    · exact .inr (hl.advances hw he)
  · exact .inr (advances_of_idle hm rfl)

end

/-! ## The commands that do not wait (R291) -/

/-- What runs on is the same command (R31). -/
theorem State.sequencerStep_cmd {s t : State} (h : s.sequencerStep = .next t) : t.seq.cmd = s.seq.cmd := by
  rcases State.sequencerStep_next h with ⟨_, rfl⟩ | ⟨_, i, _, he⟩ | ⟨_, _, _, rfl⟩
  · rfl
  · obtain ⟨_, _, _, _, _, hcmd, _⟩ := (exec_shape he).keeps_inputs
    exact hcmd
  · rfl

/-- A command that ends says so in `DONE` (R252, R253). -/
theorem StepEnd.done_of_idle {s t : State} (h : StepEnd s t) (hm : s.seq.mode = .run) (ht : t.seq.mode = .idle) :
    t.status.done = true := by
  cases h with
  | goesOn hmode _ _ _ => exact absurd ((hm.symm.trans hmode.symm).trans ht) nofun
  | completes _ _ hst _ => rw [hst]; rfl
  | fails e _ _ hst _ _ => rw [hst]; rfl

theorem stepsLeft_le_five {s : State} {i : Instr} (hB : BlockInv s) (hm : s.seq.mode = .run)
    (hd : decode s.seq.cmd = .ok i) (hi : waits i = false) : s.seq.stepsLeft 0 0 ≤ 5 := by
  obtain ⟨l, hl⟩ := hB.standing hm hd
  rw [Seq.stepsLeft_run hm hd hl.step, microStepsLeft_of_not_waits hi]
  exact (straightStepsLeft_bounds l).2

/-- A command that does not wait ends within its micro-steps left. -/
theorem sequencerRun_ends {n : Nat} {s : State} {i : Instr} (hB : BlockInv s) (hm : s.seq.mode = .run)
    (hd : decode s.seq.cmd = .ok i) (hi : waits i = false) (hn : s.seq.stepsLeft 0 0 ≤ n) :
    ∃ k t, 1 ≤ k ∧ k ≤ n ∧ sequencerRun k s = .next t ∧ t.seq.mode = .idle ∧ t.status.done = true := by
  induction n generalizing s with
  | zero => exact absurd (Seq.stepsLeft_pos hm 0 0) (by omega)
  | succ n ih =>
    obtain ⟨t, ht⟩ := hB.sequencerStep_answers
    have hadv : Advances s t := (hB.sequencerStep_advances hm ht).resolve_left fun ⟨⟨j, l, hw⟩, _⟩ => by
      obtain rfl : i = j := Except.ok.inj (hd.symm.trans hw.2.1)
      exact absurd (hi.symm.trans (waits_of_waiting hw)) nofun
    cases hmt : t.seq.mode with
    | idle =>
      exact ⟨1, t, Nat.le_refl 1, Nat.succ_pos n, by simp [sequencerRun, ht], hmt,
        (State.sequencerStep_stepEnd hm ht).done_of_idle hm hmt⟩
    | run =>
      have hlt := hadv 0 0 0 (Nat.le_refl 0)
      obtain ⟨k, u, hk, hkn, hu, hend⟩ :=
        ih (hB.sequencerStep ht) hmt ((congrArg decode (State.sequencerStep_cmd ht)).trans hd) (by omega)
      exact ⟨k + 1, u, by omega, by omega, by simpa [sequencerRun, ht] using hu, hend⟩

/-- Settles O58: no micro-step of such a command is a failed poll, and it has at most five. -/
theorem otherCommandsEndWithinFiveSteps : Obligations.OtherCommandsEndWithinFiveSteps :=
  fun _ _ hB hm hd hi => sequencerRun_ends hB hm hd hi (stepsLeft_le_five hB hm hd hi)

end Sys2Proof.Machine
end

section
/-! Every command ends (R291): with a budget after a bounded number of sequencer moves, whatever the other agents do
(R137), and in a fair run with a live converter also without one (R297). -/

namespace Sys2Proof.Machine

open Sys2Proof.Claims

/-! ## One move of a run -/

section
variable {s t : State} {i : Instr} {l : MicroStep} {m : Move}

/-- Under a running command no move but the sequencer's or a reset touches the sequencer or the budget. -/
theorem State.applyMove_keeps_seq (hm : s.seq.mode = .run) (h : s.applyMove m = .next t) (hs : m ≠ .sequencer)
    (hr : m ≠ .reset) : t.seq = s.seq ∧ t.timeout = s.timeout := by
  cases m with
  | converter e =>
    cases h
    exact ⟨rfl, rfl⟩
  | host | tick =>
    obtain ⟨hseq, _, htimeout, _⟩ := State.applyMove_keeps_command hm h nofun nofun nofun
    exact ⟨hseq, htimeout⟩
  | sequencer => exact absurd rfl hs
  | reset => exact absurd rfl hr

/-- The budget a command runs under is the one it started with: `ADC_SET_TIMEOUT` ends as it writes it (R145). -/
theorem State.sequencerStep_timeout (hm : t.seq.mode = .run) (h : s.sequencerStep = .next t) :
    t.timeout = s.timeout := by
  rcases State.sequencerStep_next h with ⟨_, rfl⟩ | ⟨_, i, _, he⟩ | ⟨_, _, _, rfl⟩
  · rfl
  · refine (exec_shape he).timeout_eq_or.resolve_right fun hi => ?_
    subst hi
    exact absurd (hm.symm.trans (exec_ends_of_oneStep rfl he)) nofun
  · rfl

/-- A failed poll ends the command or leaves the state but for the poll counter (R137). -/
theorem pollFailed_cases (s : State) :
    (pollFailed s).seq.mode = .idle
      ∨ (s.timeout = 0#32 ∧ pollFailed s = s)
      ∨ (s.timeout ≠ 0#32 ∧ pollFailed s = polled s (s.seq.polls + 1#32)) := by
  unfold pollFailed
  split
  · next h0 => exact .inr (.inl ⟨h0, rfl⟩)
  · next h0 =>
    split
    · exact .inl rfl
    · exact .inr (.inr ⟨h0, rfl⟩)

/-! ## With a budget (R137) -/

/-- At a wait the count is the polls that can still fail, and what comes after the wait. -/
theorem stepsLeft_of_waiting (h : Waiting s i l) (w : Nat) : ∃ c, ∀ r, s.seq.stepsLeft w r = r + c := by
  obtain ⟨hm, hd, hs, hwait⟩ := h
  simp only [Seq.stepsLeft_run hm hd hs]
  rcases hwait with ⟨rfl, rfl, _⟩ | ⟨rfl, rfl, _⟩ | ⟨ch, rfl, rfl, _⟩ | ⟨ch, n, rfl, rfl, _⟩
  · exact ⟨w + 4, fun r => Nat.add_assoc r w 4⟩
  · exact ⟨2, fun r => rfl⟩
  · exact ⟨2, fun r => rfl⟩
  · exact ⟨(n.toNat - (s.seq.k.toNat + 1)) * (w + 2) + 2, fun r => by simp only [microStepsLeft, adcAvgStepsLeft]; omega⟩

/-- What the invariant says of a waiting command: its poll counter is below the budget. -/
theorem BlockInv.pollsBelow (hB : BlockInv s) (h : Waiting s i l) : pollsBelow s := by
  obtain ⟨l', hl⟩ := hB.standing h.1 h.2.1
  obtain ⟨_, _, hs, hwait⟩ := h
  obtain rfl := hl.label_eq hs
  have hinv := hl.inv
  rcases hwait with ⟨rfl, rfl, _⟩ | ⟨rfl, rfl, _⟩ | ⟨ch, rfl, rfl, _⟩ | ⟨ch, n, rfl, rfl, _⟩
  · obtain ⟨_, _, _, _, _, _, hp⟩ := hinv
    exact hp (by decide)
  · obtain ⟨_, _, _, _, _, _, hp⟩ := hinv
    exact hp (by decide)
  · obtain ⟨_, hw, _⟩ := hinv
    exact (hw rfl).2.2
  · obtain ⟨_, _, hw, _⟩ := hinv
    exact (hw rfl).2.2

/-- The sequencer moves left to the running command under its budget. -/
def State.movesLeft (s : State) : Nat := s.seq.stepsLeft s.timeout.toNat (s.timeout.toNat - s.seq.polls.toNat)

theorem State.movesLeft_of_seq_eq (hseq : t.seq = s.seq) (ht : t.timeout = s.timeout) : t.movesLeft = s.movesLeft := by
  rw [State.movesLeft, State.movesLeft, hseq, ht]

/-- With a budget every sequencer move ends the command or lowers its moves left. -/
theorem BlockInv.sequencerStep_lowers (hB : BlockInv s) (hm : s.seq.mode = .run) (h0 : s.timeout ≠ 0#32)
    (h : s.sequencerStep = .next t) (hmt : t.seq.mode = .run) : t.movesLeft < s.movesLeft := by
  have htimeout := State.sequencerStep_timeout hmt h
  rcases hB.sequencerStep_advances hm h with ⟨⟨i, l, hw⟩, rfl⟩ | hadv
  · rcases pollFailed_cases s with hi | ⟨hz, _⟩ | ⟨_, hp⟩
    · exact absurd (hmt.symm.trans hi) nofun
    · exact absurd hz h0
    · have hlt : s.seq.polls.toNat < s.timeout.toNat := (hB.pollsBelow hw).resolve_left h0
      have hnext : (s.seq.polls + 1#32).toNat = s.seq.polls.toNat + 1 := by bv_omega
      obtain ⟨c, hc⟩ := stepsLeft_of_waiting hw s.timeout.toNat
      rw [hp, State.movesLeft, State.movesLeft, hc]
      show s.seq.stepsLeft s.timeout.toNat (s.timeout.toNat - (s.seq.polls + 1#32).toNat) < _
      rw [hc, hnext]
      omega
  · rw [State.movesLeft, State.movesLeft, htimeout]
    exact hadv _ _ _ (Nat.sub_le _ _)

theorem adcAvgStepsLeft_le {w r n : Nat} (hw : 1 ≤ w) (hr : r ≤ w) (hn : n ≤ 255) (k : Nat) (l : MicroStep) :
    adcAvgStepsLeft w r n k l ≤ 256 * (w + 2) := by
  have hmul (j : Nat) (hj : j ≤ n) : j * (w + 2) ≤ 255 * (w + 2) := Nat.mul_le_mul_right _ (hj.trans hn)
  have h1 := hmul n (Nat.le_refl n)
  have h2 := hmul (n - k) (Nat.sub_le _ _)
  have h3 := hmul (n - (k + 1)) (Nat.sub_le _ _)
  cases l <;> simp only [adcAvgStepsLeft] <;> omega

theorem microStepsLeft_le {w r : Nat} (hw : 1 ≤ w) (hr : r ≤ w) (k : Nat) (i : Instr) (l : MicroStep) :
    microStepsLeft w r k i l ≤ 256 * (w + 2) := by
  cases i with
  | adcInit => cases l <;> simp only [microStepsLeft, adcInitStepsLeft] <;> omega
  | adcSample ch => cases l <;> simp only [microStepsLeft, adcSampleStepsLeft] <;> omega
  | adcAvg ch n => exact adcAvgStepsLeft_le hw hr (Nat.le_of_lt_succ n.isLt) k l
  | _ => exact (straightStepsLeft_bounds l).2.trans (by omega)

theorem State.movesLeft_le (hm : s.seq.mode = .run) (h0 : s.timeout ≠ 0#32) :
    s.movesLeft ≤ 256 * (s.timeout.toNat + 2) := by
  have hpos : 1 ≤ s.timeout.toNat := Nat.one_le_iff_ne_zero.mpr fun hz => h0 (BitVec.eq_of_toNat_eq hz)
  simp only [State.movesLeft, Seq.stepsLeft, hm]
  split
  · exact microStepsLeft_le hpos (Nat.sub_le _ _) _ _ _
  · omega

end

/-- Moves that hold as many sequencer moves as are left pass through an idle state, short of a bus error. -/
theorem BlockInv.runMoves_idle {s : State} {ms : List Move} (hB : BlockInv s) (hm : s.seq.mode = .run)
    (h0 : s.timeout ≠ 0#32) (hms : ∀ m ∈ ms, m ≠ .reset) (hn : s.movesLeft ≤ ms.count .sequencer) :
    (∃ k t, k ≤ ms.length ∧ runMoves (ms.take k) s = .next t ∧ t.seq.mode = .idle)
      ∨ ∃ a n, runMoves ms s = .fault (.busError a n) := by
  induction ms generalizing s with
  | nil => exact absurd (Seq.stepsLeft_pos hm _ _) (Nat.not_lt.mpr hn)
  | cons m ms ih =>
    obtain ⟨hr, hrest⟩ := List.forall_mem_cons.mp hms
    rcases hB.applyMove_answers m with ⟨t, ht⟩ | ⟨_, addr, n, _, hf⟩
    · cases hmt : t.seq.mode with
      | idle => exact .inl ⟨1, t, by simp, by simp [runMoves, ht], hmt⟩
      | run =>
        have hleft : t.timeout = s.timeout ∧ t.movesLeft ≤ ms.count .sequencer := by
          by_cases hs : m = .sequencer
          · subst hs
            have hlt := hB.sequencerStep_lowers hm h0 ht hmt
            rw [List.count_cons_self] at hn
            exact ⟨State.sequencerStep_timeout hmt ht, by omega⟩
          · obtain ⟨hseq, htimeout⟩ := State.applyMove_keeps_seq hm ht hs hr
            rw [List.count_cons_of_ne hs] at hn
            exact ⟨htimeout, (State.movesLeft_of_seq_eq hseq htimeout).trans_le hn⟩
        rcases ih (hB.applyMove ht) hmt (hleft.1 ▸ h0) hrest hleft.2 with ⟨k, u, hk, hu, hi⟩ | ⟨a, n, hf⟩
        · exact .inl ⟨k + 1, u, Nat.succ_le_succ hk, by simpa [runMoves, ht] using hu, hi⟩
        · exact .inr ⟨a, n, by simpa [runMoves, ht] using hf⟩
    · exact .inr ⟨addr, n, by simp [runMoves, hf]⟩

/-- Settles O59: the moves left under the budget are lowered by every sequencer move and raised by none. -/
theorem budgetBoundsEveryCommand : Obligations.BudgetBoundsEveryCommand :=
  fun _ _ hB hm h0 hms hn => hB.runMoves_idle hm h0 hms ((State.movesLeft_le hm h0).trans hn)

/-! ## Without a budget: the converter's part (R44, R297) -/

section
variable {s t : State} {i : Instr} {l : MicroStep} {m : Move}

/-- The converter step that ends the wait of a command at a micro-step. -/
def awaited : Instr → MicroStep → FairAgent
  | .adcInit, .s7 => .k1
  | .adcInit, _ => .k2
  | _, _ => .k3

/-- While a command waits, the converter step it waits for is enabled. -/
theorem BlockInv.awaited_enabled (hB : BlockInv s) (h : Waiting s i l) : (awaited i l).enabled s = true := by
  obtain ⟨l', hl⟩ := hB.standing h.1 h.2.1
  obtain ⟨_, _, hs, hwait⟩ := h
  obtain rfl := hl.label_eq hs
  have hinv := hl.inv
  rcases hwait with ⟨rfl, rfl, hc⟩ | ⟨rfl, rfl, hc⟩ | ⟨ch, rfl, rfl, hc⟩ | ⟨ch, n, rfl, rfl, hc⟩
  · obtain ⟨_, _, _, hon, _⟩ := hinv
    simp [awaited, FairAgent.enabled, hon (by decide), hc]
  · obtain ⟨_, _, _, hon, _⟩ := hinv
    simp [awaited, FairAgent.enabled, hon (by decide), hc]
  · obtain ⟨hready, hw, _⟩ := hinv
    have hpend : s.adc.pend = !s.adc.eoc := (hw rfl).1
    simp [awaited, FairAgent.enabled, (hB.adc.ready (hready nofun).2).1, hpend, hc]
  · obtain ⟨hready, _, hw, _⟩ := hinv
    have hpend : s.adc.pend = !s.adc.eoc := (hw rfl).1
    simp [awaited, FairAgent.enabled, (hB.adc.ready (hready nofun).2.2).1, hpend, hc]

/-- The awaited converter step ends the wait. -/
theorem not_waiting_of_awaited (he : (awaited i l).enabled s = true) (hm : (awaited i l).moves m)
    (h : s.applyMove m = .next t) : ¬ Waiting t i l := by
  rintro ⟨_, _, _, ⟨rfl, rfl, hc⟩ | ⟨rfl, rfl, hc⟩ | ⟨ch, rfl, rfl, hc⟩ | ⟨ch, n, rfl, rfl, hc⟩⟩
  · obtain rfl : m = .converter .k1 := hm
    have hon : (s.adc.adon && s.adc.rstcal) = true := he
    cases h
    simp [Adc.converterStep, hon] at hc
  · obtain rfl : m = .converter .k2 := hm
    have hon : (s.adc.adon && s.adc.cal) = true := he
    cases h
    simp [Adc.converterStep, hon] at hc
  all_goals
    obtain ⟨v, rfl⟩ : ∃ v, m = .converter (.k3 v) := hm
    have hon : (s.adc.adon && s.adc.pend) = true := he
    cases h
    simp [Adc.converterStep, hon] at hc

/-- A finished conversion stays finished under the converter (R44). -/
theorem eoc_of_converterStep {a : Adc} {e : ConverterEvent} (h : (a.converterStep e).eoc = false) : a.eoc = false := by
  rcases a.converterStep_cases e with he | ⟨_, _, _, he⟩ | ⟨_, _, _, he⟩ | ⟨_, _, v, _, he⟩ <;> rw [he] at h
  · exact h
  · exact h
  · exact h
  · cases h

/-- No converter step makes a command wait. -/
theorem waiting_of_converterMove {e : ConverterEvent} (h : Waiting (s.converterMove e) i l) : Waiting s i l := by
  have hkept := AdcKept.converterStep s.adc e
  obtain ⟨hm, hd, hs, hwait⟩ := h
  refine ⟨hm, hd, hs, ?_⟩
  rcases hwait with ⟨hi, hl, hc⟩ | ⟨hi, hl, hc⟩ | ⟨ch, hi, hl, hc⟩ | ⟨ch, n, hi, hl, hc⟩
  · exact .inl ⟨hi, hl, by simpa using mt hkept.rstcal (by simpa using hc)⟩
  · exact .inr (.inl ⟨hi, hl, by simpa using mt hkept.cal (by simpa using hc)⟩)
  · exact .inr (.inr (.inl ⟨ch, hi, hl, eoc_of_converterStep hc⟩))
  · exact .inr (.inr (.inr ⟨ch, n, hi, hl, eoc_of_converterStep hc⟩))

/-- A move that leaves the command at its micro-step: the sequencer's only as a failed poll, and none that makes the
command wait. -/
structure Stays (m : Move) (s t : State) : Prop where
  seq     : ∃ p, t.seq = { s.seq with polls := p }
  polled  : m = .sequencer → Stalled s
  stalled : Stalled t → Stalled s

/-- A move under which the command runs on advances it or leaves it at its micro-step. -/
theorem BlockInv.advances_or_stays (hB : BlockInv s) (hm : s.seq.mode = .run) (hmt : t.seq.mode = .run)
    (h : s.applyMove m = .next t) : Advances s t ∨ Stays m s t := by
  cases m with
  | sequencer =>
    rcases hB.sequencerStep_advances hm h with ⟨hstalled, rfl⟩ | hadv
    · refine .inr ⟨?_, fun _ => hstalled, fun _ => hstalled⟩
      rcases pollFailed_cases s with hi | ⟨_, hp⟩ | ⟨_, hp⟩
      · exact absurd (hmt.symm.trans hi) nofun
      · exact ⟨s.seq.polls, by rw [hp]⟩
      · exact ⟨s.seq.polls + 1#32, by rw [hp]; rfl⟩
    · exact .inl hadv
  | converter e =>
    cases h
    exact .inr ⟨⟨s.seq.polls, rfl⟩, nofun, fun ⟨i, l, hw⟩ => ⟨i, l, waiting_of_converterMove hw⟩⟩
  | host | tick =>
    obtain ⟨hseq, hadc, _⟩ := State.applyMove_keeps_command hm h nofun nofun nofun
    exact .inr ⟨⟨s.seq.polls, hseq⟩, nofun, fun ⟨i, l, hw⟩ => ⟨i, l, hw.of_eq hseq.symm hadc.symm⟩⟩
  | reset =>
    cases h
    cases hmt

end

/-! ## Fair runs (R291) -/

section
variable {σ : Nat → Move} {tr : Nat → State} {n : Nat}

theorem FairRun.block {live : Bool} (hf : FairRun live σ tr) (hB : BlockInv (tr 0)) (n : Nat) : BlockInv (tr n) := by
  induction n with
  | zero => exact hB
  | succ n ih => exact ih.applyMove (hf.follows n)

theorem FairRun.weaklyFair_awaited (hf : FairRun true σ tr) (i : Instr) (l : MicroStep) :
    WeaklyFair (awaited i l) σ tr := by
  obtain ⟨h1, h2, h3⟩ := hf.converter rfl
  unfold awaited
  split
  · exact h1
  · exact h2
  · exact h3

/-- A command that stays at its micro-step from `n` on would have to wait for ever, and the awaited converter step
forbids that. -/
theorem FairRun.not_stays (hf : FairRun true σ tr) (hB : BlockInv (tr 0)) (hrun : ∀ m, n ≤ m → (tr m).seq.mode = .run)
    (hseq : ∀ m, n ≤ m → ∃ p, (tr m).seq = { (tr n).seq with polls := p })
    (hstays : ∀ m, n ≤ m → Stays (σ m) (tr m) (tr (m + 1))) : False := by
  by_cases hstalled : ∀ m, n ≤ m → Stalled (tr m)
  · obtain ⟨i, l, hw⟩ := hstalled n (Nat.le_refl n)
    have hwait (m : Nat) (hm : n ≤ m) : Waiting (tr m) i l := by
      obtain ⟨i', l', hw'⟩ := hstalled m hm
      obtain ⟨p, hp⟩ := hseq m hm
      obtain ⟨_, hd, hs, _⟩ := hw
      obtain ⟨_, hd', hs', _⟩ := id hw'
      rw [hp] at hd' hs'
      obtain rfl := Except.ok.inj (hd.symm.trans hd')
      obtain rfl := Option.some.inj (hs.symm.trans hs')
      exact hw'
    have henabled (m : Nat) (hm : n ≤ m) := (hf.block hB m).awaited_enabled (hwait m hm)
    obtain ⟨m, hm, hmoves⟩ := hf.weaklyFair_awaited i l n henabled
    exact not_waiting_of_awaited (henabled m hm) hmoves (hf.follows m) (hwait (m + 1) (Nat.le_succ_of_le hm))
  · push Not at hstalled
    obtain ⟨m, hm, hfree⟩ := hstalled
    have hfree' (k : Nat) (hk : m ≤ k) : ¬ Stalled (tr k) := by
      induction k, hk using Nat.le_induction with
      | base => exact hfree
      | succ k hk ih => exact fun hs => ih ((hstays k (hm.trans hk)).stalled hs)
    obtain ⟨k, hk, hmove⟩ := hf.sequencer m fun k hk => by simp [FairAgent.enabled, hrun k (hm.trans hk)]
    exact hfree' k hk ((hstays k (hm.trans hk)).polled hmove)

/-- A command that runs on in a fair run comes nearer to its end. -/
theorem FairRun.comes_nearer (hf : FairRun true σ tr) (hB : BlockInv (tr 0))
    (hrun : ∀ m, n ≤ m → (tr m).seq.mode = .run) :
    ∃ m, n ≤ m ∧ (tr m).seq.stepsLeft 0 0 < (tr n).seq.stepsLeft 0 0 := by
  by_contra hnone
  push Not at hnone
  have hstays (m : Nat) (hm : n ≤ m) (hsame : ∃ p, (tr m).seq = { (tr n).seq with polls := p }) :
      Stays (σ m) (tr m) (tr (m + 1)) := by
    have hm' : n ≤ m + 1 := Nat.le_succ_of_le hm
    refine ((hf.block hB m).advances_or_stays (hrun m hm) (hrun _ hm') (hf.follows m)).resolve_left fun hadv => ?_
    obtain ⟨p, hp⟩ := hsame
    have hlt := hadv 0 0 0 (Nat.le_refl 0)
    rw [hp] at hlt
    exact absurd hlt (Nat.not_lt.mpr (hnone (m + 1) hm'))
  have hseq (m : Nat) (hm : n ≤ m) : ∃ p, (tr m).seq = { (tr n).seq with polls := p } := by
    induction m, hm using Nat.le_induction with
    | base => exact ⟨(tr n).seq.polls, rfl⟩
    | succ m hm ih =>
      obtain ⟨p, hp⟩ := ih
      obtain ⟨q, hq⟩ := (hstays m hm ⟨p, hp⟩).seq
      exact ⟨q, by rw [hq, hp]⟩
  exact hf.not_stays hB hrun hseq fun m hm => hstays m hm (hseq m hm)

/-- In a fair run with a live converter no command runs for ever. -/
theorem FairRun.not_running (hf : FairRun true σ tr) (hB : BlockInv (tr 0))
    (hrun : ∀ m, n ≤ m → (tr m).seq.mode = .run) : False := by
  induction hr : (tr n).seq.stepsLeft 0 0 using Nat.strong_induction_on generalizing n with
  | _ r ih =>
    obtain ⟨m, hm, hlt⟩ := hf.comes_nearer hB hrun
    exact ih _ (hr ▸ hlt) (fun k hk => hrun k (hm.trans hk)) rfl

end

/-- Settles O60: a running command comes nearer to its end until it is there. -/
theorem liveConverterEndsEveryCommand : Obligations.LiveConverterEndsEveryCommand := by
  intro σ tr hf hB n _
  by_contra hnone
  push Not at hnone
  refine hf.not_running hB (n := n) fun m hm => ?_
  cases hmode : (tr m).seq.mode with
  | idle => exact absurd hmode (hnone m hm)
  | run => rfl

end Sys2Proof.Machine
end
